-- ==== Sys2Proof/Word.lean ====
section
/-! DEFINITION. The word types of the block (spec/00_scope.md R5, R8). -/

namespace Sys2Proof

/-- A `u8`: registers A, X, Y, SP, every memory byte, every ALU operand (R5, R8). -/
abbrev Byte := BitVec 8

/-- A `u16`: the program counter and every bus address (R5, R8). -/
abbrev Addr := BitVec 16

end Sys2Proof
end

