-- ==== Sys2Proof/Syntax.lean ====
section
/-! DEFINITION. The instruction set as syntax: the thirteen addressing modes (spec/41), the fifty-six mnemonics (R67)
and `Instr`, one constructor per row of spec/opcode_table.json. An instruction carries its operand bytes and nothing
else, so every term is an instruction the block has: the operand bytes are never checked (R68). -/

namespace Sys2Proof

/-- The thirteen addressing modes (R101 to R113). -/
inductive AddrMode where
  | implicit | accumulator | immediate
  | zeroPage | zeroPageX | zeroPageY
  | absolute | absoluteX | absoluteY
  | relative | indirect | indexedIndirect | indirectIndexed
  deriving DecidableEq, Repr

/-- An operand of one of the ten modes that produce an effective address `EA` (R104 to R113), with its operand
bytes assembled as R62 says. -/
inductive EaOperand where
  | zeroPage (base : Byte)
  | zeroPageX (base : Byte)
  | zeroPageY (base : Byte)
  | absolute (base : Addr)
  | absoluteX (base : Addr)
  | absoluteY (base : Addr)
  | relative (offset : Byte)
  | indirect (pointer : Addr)
  | indexedIndirect (base : Byte)
  | indirectIndexed (base : Byte)
  deriving DecidableEq, Repr

/-- An operand of any mode: the three modes without an effective address (R101 to R103), or one of the ten with. -/
inductive Operand where
  | implicit
  | accumulator
  | immediate (value : Byte)
  | ea (operand : EaOperand)
  deriving DecidableEq, Repr

/-- The fifty-six mnemonics (R67), spelt as spec/opcode_table.json spells them. -/
inductive Mnemonic where
  | LDA | LDX | LDY | STA | STX | STY
  | TAX | TAY | TXA | TYA | TSX | TXS
  | AND | ORA | EOR | ADC | SBC | CMP | CPX | CPY | BIT
  | INX | DEX | INY | DEY | INC | DEC | ASL | LSR | ROL | ROR
  | PHA | PHP | PLA | PLP
  | JMP | JSR | RTS | RTI | BRK | BCC | BCS | BEQ | BNE | BMI | BPL | BVC | BVS
  | CLC | SEC | CLI | SEI | CLD | SED | CLV | NOP
  deriving DecidableEq, Repr

/-- One constructor per row of spec/opcode_table.json (R63, R67); the comment gives the opcode byte and the syntax. -/
inductive Instr where
  -- Loads and stores (spec/42)
  | ldaImmediate (value : Byte)                 -- 0xA9  LDA #$nn
  | ldaZeroPage (base : Byte)                   -- 0xA5  LDA $nn
  | ldaZeroPageX (base : Byte)                  -- 0xB5  LDA $nn,X
  | ldaAbsolute (base : Addr)                   -- 0xAD  LDA $nnnn
  | ldaAbsoluteX (base : Addr)                  -- 0xBD  LDA $nnnn,X
  | ldaAbsoluteY (base : Addr)                  -- 0xB9  LDA $nnnn,Y
  | ldaIndexedIndirect (base : Byte)            -- 0xA1  LDA ($nn,X)
  | ldaIndirectIndexed (base : Byte)            -- 0xB1  LDA ($nn),Y
  | ldxImmediate (value : Byte)                 -- 0xA2  LDX #$nn
  | ldxZeroPage (base : Byte)                   -- 0xA6  LDX $nn
  | ldxZeroPageY (base : Byte)                  -- 0xB6  LDX $nn,Y
  | ldxAbsolute (base : Addr)                   -- 0xAE  LDX $nnnn
  | ldxAbsoluteY (base : Addr)                  -- 0xBE  LDX $nnnn,Y
  | ldyImmediate (value : Byte)                 -- 0xA0  LDY #$nn
  | ldyZeroPage (base : Byte)                   -- 0xA4  LDY $nn
  | ldyZeroPageX (base : Byte)                  -- 0xB4  LDY $nn,X
  | ldyAbsolute (base : Addr)                   -- 0xAC  LDY $nnnn
  | ldyAbsoluteX (base : Addr)                  -- 0xBC  LDY $nnnn,X
  | staZeroPage (base : Byte)                   -- 0x85  STA $nn
  | staZeroPageX (base : Byte)                  -- 0x95  STA $nn,X
  | staAbsolute (base : Addr)                   -- 0x8D  STA $nnnn
  | staAbsoluteX (base : Addr)                  -- 0x9D  STA $nnnn,X
  | staAbsoluteY (base : Addr)                  -- 0x99  STA $nnnn,Y
  | staIndexedIndirect (base : Byte)            -- 0x81  STA ($nn,X)
  | staIndirectIndexed (base : Byte)            -- 0x91  STA ($nn),Y
  | stxZeroPage (base : Byte)                   -- 0x86  STX $nn
  | stxZeroPageY (base : Byte)                  -- 0x96  STX $nn,Y
  | stxAbsolute (base : Addr)                   -- 0x8E  STX $nnnn
  | styZeroPage (base : Byte)                   -- 0x84  STY $nn
  | styZeroPageX (base : Byte)                  -- 0x94  STY $nn,X
  | styAbsolute (base : Addr)                   -- 0x8C  STY $nnnn
  -- Transfers (spec/42)
  | tax                                         -- 0xAA  TAX
  | tay                                         -- 0xA8  TAY
  | txa                                         -- 0x8A  TXA
  | tya                                         -- 0x98  TYA
  | tsx                                         -- 0xBA  TSX
  | txs                                         -- 0x9A  TXS
  -- Logic, arithmetic, compare, bit test (spec/43)
  | andImmediate (value : Byte)                 -- 0x29  AND #$nn
  | andZeroPage (base : Byte)                   -- 0x25  AND $nn
  | andZeroPageX (base : Byte)                  -- 0x35  AND $nn,X
  | andAbsolute (base : Addr)                   -- 0x2D  AND $nnnn
  | andAbsoluteX (base : Addr)                  -- 0x3D  AND $nnnn,X
  | andAbsoluteY (base : Addr)                  -- 0x39  AND $nnnn,Y
  | andIndexedIndirect (base : Byte)            -- 0x21  AND ($nn,X)
  | andIndirectIndexed (base : Byte)            -- 0x31  AND ($nn),Y
  | oraImmediate (value : Byte)                 -- 0x09  ORA #$nn
  | oraZeroPage (base : Byte)                   -- 0x05  ORA $nn
  | oraZeroPageX (base : Byte)                  -- 0x15  ORA $nn,X
  | oraAbsolute (base : Addr)                   -- 0x0D  ORA $nnnn
  | oraAbsoluteX (base : Addr)                  -- 0x1D  ORA $nnnn,X
  | oraAbsoluteY (base : Addr)                  -- 0x19  ORA $nnnn,Y
  | oraIndexedIndirect (base : Byte)            -- 0x01  ORA ($nn,X)
  | oraIndirectIndexed (base : Byte)            -- 0x11  ORA ($nn),Y
  | eorImmediate (value : Byte)                 -- 0x49  EOR #$nn
  | eorZeroPage (base : Byte)                   -- 0x45  EOR $nn
  | eorZeroPageX (base : Byte)                  -- 0x55  EOR $nn,X
  | eorAbsolute (base : Addr)                   -- 0x4D  EOR $nnnn
  | eorAbsoluteX (base : Addr)                  -- 0x5D  EOR $nnnn,X
  | eorAbsoluteY (base : Addr)                  -- 0x59  EOR $nnnn,Y
  | eorIndexedIndirect (base : Byte)            -- 0x41  EOR ($nn,X)
  | eorIndirectIndexed (base : Byte)            -- 0x51  EOR ($nn),Y
  | adcImmediate (value : Byte)                 -- 0x69  ADC #$nn
  | adcZeroPage (base : Byte)                   -- 0x65  ADC $nn
  | adcZeroPageX (base : Byte)                  -- 0x75  ADC $nn,X
  | adcAbsolute (base : Addr)                   -- 0x6D  ADC $nnnn
  | adcAbsoluteX (base : Addr)                  -- 0x7D  ADC $nnnn,X
  | adcAbsoluteY (base : Addr)                  -- 0x79  ADC $nnnn,Y
  | adcIndexedIndirect (base : Byte)            -- 0x61  ADC ($nn,X)
  | adcIndirectIndexed (base : Byte)            -- 0x71  ADC ($nn),Y
  | sbcImmediate (value : Byte)                 -- 0xE9  SBC #$nn
  | sbcZeroPage (base : Byte)                   -- 0xE5  SBC $nn
  | sbcZeroPageX (base : Byte)                  -- 0xF5  SBC $nn,X
  | sbcAbsolute (base : Addr)                   -- 0xED  SBC $nnnn
  | sbcAbsoluteX (base : Addr)                  -- 0xFD  SBC $nnnn,X
  | sbcAbsoluteY (base : Addr)                  -- 0xF9  SBC $nnnn,Y
  | sbcIndexedIndirect (base : Byte)            -- 0xE1  SBC ($nn,X)
  | sbcIndirectIndexed (base : Byte)            -- 0xF1  SBC ($nn),Y
  | cmpImmediate (value : Byte)                 -- 0xC9  CMP #$nn
  | cmpZeroPage (base : Byte)                   -- 0xC5  CMP $nn
  | cmpZeroPageX (base : Byte)                  -- 0xD5  CMP $nn,X
  | cmpAbsolute (base : Addr)                   -- 0xCD  CMP $nnnn
  | cmpAbsoluteX (base : Addr)                  -- 0xDD  CMP $nnnn,X
  | cmpAbsoluteY (base : Addr)                  -- 0xD9  CMP $nnnn,Y
  | cmpIndexedIndirect (base : Byte)            -- 0xC1  CMP ($nn,X)
  | cmpIndirectIndexed (base : Byte)            -- 0xD1  CMP ($nn),Y
  | cpxImmediate (value : Byte)                 -- 0xE0  CPX #$nn
  | cpxZeroPage (base : Byte)                   -- 0xE4  CPX $nn
  | cpxAbsolute (base : Addr)                   -- 0xEC  CPX $nnnn
  | cpyImmediate (value : Byte)                 -- 0xC0  CPY #$nn
  | cpyZeroPage (base : Byte)                   -- 0xC4  CPY $nn
  | cpyAbsolute (base : Addr)                   -- 0xCC  CPY $nnnn
  | bitZeroPage (base : Byte)                   -- 0x24  BIT $nn
  | bitAbsolute (base : Addr)                   -- 0x2C  BIT $nnnn
  -- Increment, decrement, shift, rotate (spec/44)
  | inx                                         -- 0xE8  INX
  | dex                                         -- 0xCA  DEX
  | iny                                         -- 0xC8  INY
  | dey                                         -- 0x88  DEY
  | incZeroPage (base : Byte)                   -- 0xE6  INC $nn
  | incZeroPageX (base : Byte)                  -- 0xF6  INC $nn,X
  | incAbsolute (base : Addr)                   -- 0xEE  INC $nnnn
  | incAbsoluteX (base : Addr)                  -- 0xFE  INC $nnnn,X
  | decZeroPage (base : Byte)                   -- 0xC6  DEC $nn
  | decZeroPageX (base : Byte)                  -- 0xD6  DEC $nn,X
  | decAbsolute (base : Addr)                   -- 0xCE  DEC $nnnn
  | decAbsoluteX (base : Addr)                  -- 0xDE  DEC $nnnn,X
  | aslAccumulator                              -- 0x0A  ASL A
  | aslZeroPage (base : Byte)                   -- 0x06  ASL $nn
  | aslZeroPageX (base : Byte)                  -- 0x16  ASL $nn,X
  | aslAbsolute (base : Addr)                   -- 0x0E  ASL $nnnn
  | aslAbsoluteX (base : Addr)                  -- 0x1E  ASL $nnnn,X
  | lsrAccumulator                              -- 0x4A  LSR A
  | lsrZeroPage (base : Byte)                   -- 0x46  LSR $nn
  | lsrZeroPageX (base : Byte)                  -- 0x56  LSR $nn,X
  | lsrAbsolute (base : Addr)                   -- 0x4E  LSR $nnnn
  | lsrAbsoluteX (base : Addr)                  -- 0x5E  LSR $nnnn,X
  | rolAccumulator                              -- 0x2A  ROL A
  | rolZeroPage (base : Byte)                   -- 0x26  ROL $nn
  | rolZeroPageX (base : Byte)                  -- 0x36  ROL $nn,X
  | rolAbsolute (base : Addr)                   -- 0x2E  ROL $nnnn
  | rolAbsoluteX (base : Addr)                  -- 0x3E  ROL $nnnn,X
  | rorAccumulator                              -- 0x6A  ROR A
  | rorZeroPage (base : Byte)                   -- 0x66  ROR $nn
  | rorZeroPageX (base : Byte)                  -- 0x76  ROR $nn,X
  | rorAbsolute (base : Addr)                   -- 0x6E  ROR $nnnn
  | rorAbsoluteX (base : Addr)                  -- 0x7E  ROR $nnnn,X
  -- Stack (spec/45)
  | pha                                         -- 0x48  PHA
  | php                                         -- 0x08  PHP
  | pla                                         -- 0x68  PLA
  | plp                                         -- 0x28  PLP
  -- Jumps, calls, returns, BRK, branches (spec/46)
  | jmpAbsolute (base : Addr)                   -- 0x4C  JMP $nnnn
  | jmpIndirect (pointer : Addr)                -- 0x6C  JMP ($nnnn)
  | jsr (base : Addr)                           -- 0x20  JSR $nnnn
  | rts                                         -- 0x60  RTS
  | rti                                         -- 0x40  RTI
  | brk                                         -- 0x00  BRK
  | bcc (offset : Byte)                         -- 0x90  BCC $nnnn (target)
  | bcs (offset : Byte)                         -- 0xB0  BCS $nnnn (target)
  | beq (offset : Byte)                         -- 0xF0  BEQ $nnnn (target)
  | bne (offset : Byte)                         -- 0xD0  BNE $nnnn (target)
  | bmi (offset : Byte)                         -- 0x30  BMI $nnnn (target)
  | bpl (offset : Byte)                         -- 0x10  BPL $nnnn (target)
  | bvc (offset : Byte)                         -- 0x50  BVC $nnnn (target)
  | bvs (offset : Byte)                         -- 0x70  BVS $nnnn (target)
  -- Flags and NOP (spec/47)
  | clc                                         -- 0x18  CLC
  | sec                                         -- 0x38  SEC
  | cli                                         -- 0x58  CLI
  | sei                                         -- 0x78  SEI
  | cld                                         -- 0xD8  CLD
  | sed                                         -- 0xF8  SED
  | clv                                         -- 0xB8  CLV
  | nop                                         -- 0xEA  NOP
  deriving DecidableEq, Repr

end Sys2Proof
end

