-- ==== Sys2Proof/Decode.lean ====
section
/-! DEFINITION. Decoding and encoding (spec/30): the decode table of R63 with one row per opcode, the decoder on bytes,
and the encoder. -/

namespace Sys2Proof

/-! ### Byte order (R9, R46, R62) -/

/-- `cat(h, l)`: the u16 `h * 256 + l` (R9). -/
def cat (h l : Byte) : Addr := h ++ l

/-- `w[7:0]`. -/
def lowByte (w : Addr) : Byte := w.extractLsb' 0 8

/-- `w[15:8]`. -/
def highByte (w : Addr) : Byte := w.extractLsb' 8 8

/-! ### Modes and operands -/

/-- The operand length of a mode in bytes (R61). -/
def AddrMode.operandLength : AddrMode → Nat
  | .implicit | .accumulator => 0
  | .immediate | .zeroPage | .zeroPageX | .zeroPageY | .relative | .indexedIndirect | .indirectIndexed => 1
  | .absolute | .absoluteX | .absoluteY | .indirect => 2

def EaOperand.mode : EaOperand → AddrMode
  | .zeroPage _ => .zeroPage
  | .zeroPageX _ => .zeroPageX
  | .zeroPageY _ => .zeroPageY
  | .absolute _ => .absolute
  | .absoluteX _ => .absoluteX
  | .absoluteY _ => .absoluteY
  | .relative _ => .relative
  | .indirect _ => .indirect
  | .indexedIndirect _ => .indexedIndirect
  | .indirectIndexed _ => .indirectIndexed

def Operand.mode : Operand → AddrMode
  | .implicit => .implicit
  | .accumulator => .accumulator
  | .immediate _ => .immediate
  | .ea m => m.mode

/-- The operand bytes in instruction order: a 16-bit operand is low byte first (R61, R62). -/
def EaOperand.bytes : EaOperand → List Byte
  | .zeroPage b | .zeroPageX b | .zeroPageY b | .relative b | .indexedIndirect b | .indirectIndexed b => [b]
  | .absolute w | .absoluteX w | .absoluteY w | .indirect w => [lowByte w, highByte w]

def Operand.bytes : Operand → List Byte
  | .implicit | .accumulator => []
  | .immediate v => [v]
  | .ea m => m.bytes

/-- The number of operand bytes of an operand (R61). -/
def Operand.length (o : Operand) : Nat := o.mode.operandLength

/-! ### The declared flag sets (R71) -/

/-- The subset of N, Z, C, V a descriptor declares (R71). -/
structure DeclaredFlags where
  n : Bool
  z : Bool
  c : Bool
  v : Bool
  deriving DecidableEq, Repr

def Mnemonic.declaredFlags : Mnemonic → DeclaredFlags
  | .ADC | .SBC => ⟨true, true, true, true⟩
  | .CMP | .CPX | .CPY | .ASL | .LSR | .ROL | .ROR => ⟨true, true, true, false⟩
  | .LDA | .LDX | .LDY | .TAX | .TAY | .TXA | .TYA | .TSX | .AND | .ORA | .EOR | .INX | .DEX | .INY
  | .DEY | .INC | .DEC | .PLA => ⟨true, true, false, false⟩
  | .STA | .STX | .STY | .TXS | .BIT | .PHA | .PHP | .PLP | .JMP | .JSR | .RTS | .RTI | .BRK | .BCC
  | .BCS | .BEQ | .BNE | .BMI | .BPL | .BVC | .BVS | .CLC | .SEC | .CLI | .SEI | .CLD | .SED | .CLV
  | .NOP => ⟨false, false, false, false⟩

/-! ### What an instruction is made of -/

/-- The mnemonic of an instruction (R67). -/
def Instr.mnemonic : Instr → Mnemonic
  | .ldaImmediate _ => .LDA
  | .ldaZeroPage _ => .LDA
  | .ldaZeroPageX _ => .LDA
  | .ldaAbsolute _ => .LDA
  | .ldaAbsoluteX _ => .LDA
  | .ldaAbsoluteY _ => .LDA
  | .ldaIndexedIndirect _ => .LDA
  | .ldaIndirectIndexed _ => .LDA
  | .ldxImmediate _ => .LDX
  | .ldxZeroPage _ => .LDX
  | .ldxZeroPageY _ => .LDX
  | .ldxAbsolute _ => .LDX
  | .ldxAbsoluteY _ => .LDX
  | .ldyImmediate _ => .LDY
  | .ldyZeroPage _ => .LDY
  | .ldyZeroPageX _ => .LDY
  | .ldyAbsolute _ => .LDY
  | .ldyAbsoluteX _ => .LDY
  | .staZeroPage _ => .STA
  | .staZeroPageX _ => .STA
  | .staAbsolute _ => .STA
  | .staAbsoluteX _ => .STA
  | .staAbsoluteY _ => .STA
  | .staIndexedIndirect _ => .STA
  | .staIndirectIndexed _ => .STA
  | .stxZeroPage _ => .STX
  | .stxZeroPageY _ => .STX
  | .stxAbsolute _ => .STX
  | .styZeroPage _ => .STY
  | .styZeroPageX _ => .STY
  | .styAbsolute _ => .STY
  | .tax => .TAX
  | .tay => .TAY
  | .txa => .TXA
  | .tya => .TYA
  | .tsx => .TSX
  | .txs => .TXS
  | .andImmediate _ => .AND
  | .andZeroPage _ => .AND
  | .andZeroPageX _ => .AND
  | .andAbsolute _ => .AND
  | .andAbsoluteX _ => .AND
  | .andAbsoluteY _ => .AND
  | .andIndexedIndirect _ => .AND
  | .andIndirectIndexed _ => .AND
  | .oraImmediate _ => .ORA
  | .oraZeroPage _ => .ORA
  | .oraZeroPageX _ => .ORA
  | .oraAbsolute _ => .ORA
  | .oraAbsoluteX _ => .ORA
  | .oraAbsoluteY _ => .ORA
  | .oraIndexedIndirect _ => .ORA
  | .oraIndirectIndexed _ => .ORA
  | .eorImmediate _ => .EOR
  | .eorZeroPage _ => .EOR
  | .eorZeroPageX _ => .EOR
  | .eorAbsolute _ => .EOR
  | .eorAbsoluteX _ => .EOR
  | .eorAbsoluteY _ => .EOR
  | .eorIndexedIndirect _ => .EOR
  | .eorIndirectIndexed _ => .EOR
  | .adcImmediate _ => .ADC
  | .adcZeroPage _ => .ADC
  | .adcZeroPageX _ => .ADC
  | .adcAbsolute _ => .ADC
  | .adcAbsoluteX _ => .ADC
  | .adcAbsoluteY _ => .ADC
  | .adcIndexedIndirect _ => .ADC
  | .adcIndirectIndexed _ => .ADC
  | .sbcImmediate _ => .SBC
  | .sbcZeroPage _ => .SBC
  | .sbcZeroPageX _ => .SBC
  | .sbcAbsolute _ => .SBC
  | .sbcAbsoluteX _ => .SBC
  | .sbcAbsoluteY _ => .SBC
  | .sbcIndexedIndirect _ => .SBC
  | .sbcIndirectIndexed _ => .SBC
  | .cmpImmediate _ => .CMP
  | .cmpZeroPage _ => .CMP
  | .cmpZeroPageX _ => .CMP
  | .cmpAbsolute _ => .CMP
  | .cmpAbsoluteX _ => .CMP
  | .cmpAbsoluteY _ => .CMP
  | .cmpIndexedIndirect _ => .CMP
  | .cmpIndirectIndexed _ => .CMP
  | .cpxImmediate _ => .CPX
  | .cpxZeroPage _ => .CPX
  | .cpxAbsolute _ => .CPX
  | .cpyImmediate _ => .CPY
  | .cpyZeroPage _ => .CPY
  | .cpyAbsolute _ => .CPY
  | .bitZeroPage _ => .BIT
  | .bitAbsolute _ => .BIT
  | .inx => .INX
  | .dex => .DEX
  | .iny => .INY
  | .dey => .DEY
  | .incZeroPage _ => .INC
  | .incZeroPageX _ => .INC
  | .incAbsolute _ => .INC
  | .incAbsoluteX _ => .INC
  | .decZeroPage _ => .DEC
  | .decZeroPageX _ => .DEC
  | .decAbsolute _ => .DEC
  | .decAbsoluteX _ => .DEC
  | .aslAccumulator => .ASL
  | .aslZeroPage _ => .ASL
  | .aslZeroPageX _ => .ASL
  | .aslAbsolute _ => .ASL
  | .aslAbsoluteX _ => .ASL
  | .lsrAccumulator => .LSR
  | .lsrZeroPage _ => .LSR
  | .lsrZeroPageX _ => .LSR
  | .lsrAbsolute _ => .LSR
  | .lsrAbsoluteX _ => .LSR
  | .rolAccumulator => .ROL
  | .rolZeroPage _ => .ROL
  | .rolZeroPageX _ => .ROL
  | .rolAbsolute _ => .ROL
  | .rolAbsoluteX _ => .ROL
  | .rorAccumulator => .ROR
  | .rorZeroPage _ => .ROR
  | .rorZeroPageX _ => .ROR
  | .rorAbsolute _ => .ROR
  | .rorAbsoluteX _ => .ROR
  | .pha => .PHA
  | .php => .PHP
  | .pla => .PLA
  | .plp => .PLP
  | .jmpAbsolute _ => .JMP
  | .jmpIndirect _ => .JMP
  | .jsr _ => .JSR
  | .rts => .RTS
  | .rti => .RTI
  | .brk => .BRK
  | .bcc _ => .BCC
  | .bcs _ => .BCS
  | .beq _ => .BEQ
  | .bne _ => .BNE
  | .bmi _ => .BMI
  | .bpl _ => .BPL
  | .bvc _ => .BVC
  | .bvs _ => .BVS
  | .clc => .CLC
  | .sec => .SEC
  | .cli => .CLI
  | .sei => .SEI
  | .cld => .CLD
  | .sed => .SED
  | .clv => .CLV
  | .nop => .NOP

/-- The operand of an instruction, in its addressing mode (R62, R67). -/
def Instr.operand : Instr → Operand
  | .ldaImmediate value => .immediate value
  | .ldaZeroPage base => .ea (.zeroPage base)
  | .ldaZeroPageX base => .ea (.zeroPageX base)
  | .ldaAbsolute base => .ea (.absolute base)
  | .ldaAbsoluteX base => .ea (.absoluteX base)
  | .ldaAbsoluteY base => .ea (.absoluteY base)
  | .ldaIndexedIndirect base => .ea (.indexedIndirect base)
  | .ldaIndirectIndexed base => .ea (.indirectIndexed base)
  | .ldxImmediate value => .immediate value
  | .ldxZeroPage base => .ea (.zeroPage base)
  | .ldxZeroPageY base => .ea (.zeroPageY base)
  | .ldxAbsolute base => .ea (.absolute base)
  | .ldxAbsoluteY base => .ea (.absoluteY base)
  | .ldyImmediate value => .immediate value
  | .ldyZeroPage base => .ea (.zeroPage base)
  | .ldyZeroPageX base => .ea (.zeroPageX base)
  | .ldyAbsolute base => .ea (.absolute base)
  | .ldyAbsoluteX base => .ea (.absoluteX base)
  | .staZeroPage base => .ea (.zeroPage base)
  | .staZeroPageX base => .ea (.zeroPageX base)
  | .staAbsolute base => .ea (.absolute base)
  | .staAbsoluteX base => .ea (.absoluteX base)
  | .staAbsoluteY base => .ea (.absoluteY base)
  | .staIndexedIndirect base => .ea (.indexedIndirect base)
  | .staIndirectIndexed base => .ea (.indirectIndexed base)
  | .stxZeroPage base => .ea (.zeroPage base)
  | .stxZeroPageY base => .ea (.zeroPageY base)
  | .stxAbsolute base => .ea (.absolute base)
  | .styZeroPage base => .ea (.zeroPage base)
  | .styZeroPageX base => .ea (.zeroPageX base)
  | .styAbsolute base => .ea (.absolute base)
  | .tax => .implicit
  | .tay => .implicit
  | .txa => .implicit
  | .tya => .implicit
  | .tsx => .implicit
  | .txs => .implicit
  | .andImmediate value => .immediate value
  | .andZeroPage base => .ea (.zeroPage base)
  | .andZeroPageX base => .ea (.zeroPageX base)
  | .andAbsolute base => .ea (.absolute base)
  | .andAbsoluteX base => .ea (.absoluteX base)
  | .andAbsoluteY base => .ea (.absoluteY base)
  | .andIndexedIndirect base => .ea (.indexedIndirect base)
  | .andIndirectIndexed base => .ea (.indirectIndexed base)
  | .oraImmediate value => .immediate value
  | .oraZeroPage base => .ea (.zeroPage base)
  | .oraZeroPageX base => .ea (.zeroPageX base)
  | .oraAbsolute base => .ea (.absolute base)
  | .oraAbsoluteX base => .ea (.absoluteX base)
  | .oraAbsoluteY base => .ea (.absoluteY base)
  | .oraIndexedIndirect base => .ea (.indexedIndirect base)
  | .oraIndirectIndexed base => .ea (.indirectIndexed base)
  | .eorImmediate value => .immediate value
  | .eorZeroPage base => .ea (.zeroPage base)
  | .eorZeroPageX base => .ea (.zeroPageX base)
  | .eorAbsolute base => .ea (.absolute base)
  | .eorAbsoluteX base => .ea (.absoluteX base)
  | .eorAbsoluteY base => .ea (.absoluteY base)
  | .eorIndexedIndirect base => .ea (.indexedIndirect base)
  | .eorIndirectIndexed base => .ea (.indirectIndexed base)
  | .adcImmediate value => .immediate value
  | .adcZeroPage base => .ea (.zeroPage base)
  | .adcZeroPageX base => .ea (.zeroPageX base)
  | .adcAbsolute base => .ea (.absolute base)
  | .adcAbsoluteX base => .ea (.absoluteX base)
  | .adcAbsoluteY base => .ea (.absoluteY base)
  | .adcIndexedIndirect base => .ea (.indexedIndirect base)
  | .adcIndirectIndexed base => .ea (.indirectIndexed base)
  | .sbcImmediate value => .immediate value
  | .sbcZeroPage base => .ea (.zeroPage base)
  | .sbcZeroPageX base => .ea (.zeroPageX base)
  | .sbcAbsolute base => .ea (.absolute base)
  | .sbcAbsoluteX base => .ea (.absoluteX base)
  | .sbcAbsoluteY base => .ea (.absoluteY base)
  | .sbcIndexedIndirect base => .ea (.indexedIndirect base)
  | .sbcIndirectIndexed base => .ea (.indirectIndexed base)
  | .cmpImmediate value => .immediate value
  | .cmpZeroPage base => .ea (.zeroPage base)
  | .cmpZeroPageX base => .ea (.zeroPageX base)
  | .cmpAbsolute base => .ea (.absolute base)
  | .cmpAbsoluteX base => .ea (.absoluteX base)
  | .cmpAbsoluteY base => .ea (.absoluteY base)
  | .cmpIndexedIndirect base => .ea (.indexedIndirect base)
  | .cmpIndirectIndexed base => .ea (.indirectIndexed base)
  | .cpxImmediate value => .immediate value
  | .cpxZeroPage base => .ea (.zeroPage base)
  | .cpxAbsolute base => .ea (.absolute base)
  | .cpyImmediate value => .immediate value
  | .cpyZeroPage base => .ea (.zeroPage base)
  | .cpyAbsolute base => .ea (.absolute base)
  | .bitZeroPage base => .ea (.zeroPage base)
  | .bitAbsolute base => .ea (.absolute base)
  | .inx => .implicit
  | .dex => .implicit
  | .iny => .implicit
  | .dey => .implicit
  | .incZeroPage base => .ea (.zeroPage base)
  | .incZeroPageX base => .ea (.zeroPageX base)
  | .incAbsolute base => .ea (.absolute base)
  | .incAbsoluteX base => .ea (.absoluteX base)
  | .decZeroPage base => .ea (.zeroPage base)
  | .decZeroPageX base => .ea (.zeroPageX base)
  | .decAbsolute base => .ea (.absolute base)
  | .decAbsoluteX base => .ea (.absoluteX base)
  | .aslAccumulator => .accumulator
  | .aslZeroPage base => .ea (.zeroPage base)
  | .aslZeroPageX base => .ea (.zeroPageX base)
  | .aslAbsolute base => .ea (.absolute base)
  | .aslAbsoluteX base => .ea (.absoluteX base)
  | .lsrAccumulator => .accumulator
  | .lsrZeroPage base => .ea (.zeroPage base)
  | .lsrZeroPageX base => .ea (.zeroPageX base)
  | .lsrAbsolute base => .ea (.absolute base)
  | .lsrAbsoluteX base => .ea (.absoluteX base)
  | .rolAccumulator => .accumulator
  | .rolZeroPage base => .ea (.zeroPage base)
  | .rolZeroPageX base => .ea (.zeroPageX base)
  | .rolAbsolute base => .ea (.absolute base)
  | .rolAbsoluteX base => .ea (.absoluteX base)
  | .rorAccumulator => .accumulator
  | .rorZeroPage base => .ea (.zeroPage base)
  | .rorZeroPageX base => .ea (.zeroPageX base)
  | .rorAbsolute base => .ea (.absolute base)
  | .rorAbsoluteX base => .ea (.absoluteX base)
  | .pha => .implicit
  | .php => .implicit
  | .pla => .implicit
  | .plp => .implicit
  | .jmpAbsolute base => .ea (.absolute base)
  | .jmpIndirect pointer => .ea (.indirect pointer)
  | .jsr base => .ea (.absolute base)
  | .rts => .implicit
  | .rti => .implicit
  | .brk => .implicit
  | .bcc offset => .ea (.relative offset)
  | .bcs offset => .ea (.relative offset)
  | .beq offset => .ea (.relative offset)
  | .bne offset => .ea (.relative offset)
  | .bmi offset => .ea (.relative offset)
  | .bpl offset => .ea (.relative offset)
  | .bvc offset => .ea (.relative offset)
  | .bvs offset => .ea (.relative offset)
  | .clc => .implicit
  | .sec => .implicit
  | .cli => .implicit
  | .sei => .implicit
  | .cld => .implicit
  | .sed => .implicit
  | .clv => .implicit
  | .nop => .implicit

/-- The opcode byte of an instruction (R66, R67). -/
def Instr.opcode : Instr → Byte
  | .ldaImmediate _ => 0xA9#8
  | .ldaZeroPage _ => 0xA5#8
  | .ldaZeroPageX _ => 0xB5#8
  | .ldaAbsolute _ => 0xAD#8
  | .ldaAbsoluteX _ => 0xBD#8
  | .ldaAbsoluteY _ => 0xB9#8
  | .ldaIndexedIndirect _ => 0xA1#8
  | .ldaIndirectIndexed _ => 0xB1#8
  | .ldxImmediate _ => 0xA2#8
  | .ldxZeroPage _ => 0xA6#8
  | .ldxZeroPageY _ => 0xB6#8
  | .ldxAbsolute _ => 0xAE#8
  | .ldxAbsoluteY _ => 0xBE#8
  | .ldyImmediate _ => 0xA0#8
  | .ldyZeroPage _ => 0xA4#8
  | .ldyZeroPageX _ => 0xB4#8
  | .ldyAbsolute _ => 0xAC#8
  | .ldyAbsoluteX _ => 0xBC#8
  | .staZeroPage _ => 0x85#8
  | .staZeroPageX _ => 0x95#8
  | .staAbsolute _ => 0x8D#8
  | .staAbsoluteX _ => 0x9D#8
  | .staAbsoluteY _ => 0x99#8
  | .staIndexedIndirect _ => 0x81#8
  | .staIndirectIndexed _ => 0x91#8
  | .stxZeroPage _ => 0x86#8
  | .stxZeroPageY _ => 0x96#8
  | .stxAbsolute _ => 0x8E#8
  | .styZeroPage _ => 0x84#8
  | .styZeroPageX _ => 0x94#8
  | .styAbsolute _ => 0x8C#8
  | .tax => 0xAA#8
  | .tay => 0xA8#8
  | .txa => 0x8A#8
  | .tya => 0x98#8
  | .tsx => 0xBA#8
  | .txs => 0x9A#8
  | .andImmediate _ => 0x29#8
  | .andZeroPage _ => 0x25#8
  | .andZeroPageX _ => 0x35#8
  | .andAbsolute _ => 0x2D#8
  | .andAbsoluteX _ => 0x3D#8
  | .andAbsoluteY _ => 0x39#8
  | .andIndexedIndirect _ => 0x21#8
  | .andIndirectIndexed _ => 0x31#8
  | .oraImmediate _ => 0x09#8
  | .oraZeroPage _ => 0x05#8
  | .oraZeroPageX _ => 0x15#8
  | .oraAbsolute _ => 0x0D#8
  | .oraAbsoluteX _ => 0x1D#8
  | .oraAbsoluteY _ => 0x19#8
  | .oraIndexedIndirect _ => 0x01#8
  | .oraIndirectIndexed _ => 0x11#8
  | .eorImmediate _ => 0x49#8
  | .eorZeroPage _ => 0x45#8
  | .eorZeroPageX _ => 0x55#8
  | .eorAbsolute _ => 0x4D#8
  | .eorAbsoluteX _ => 0x5D#8
  | .eorAbsoluteY _ => 0x59#8
  | .eorIndexedIndirect _ => 0x41#8
  | .eorIndirectIndexed _ => 0x51#8
  | .adcImmediate _ => 0x69#8
  | .adcZeroPage _ => 0x65#8
  | .adcZeroPageX _ => 0x75#8
  | .adcAbsolute _ => 0x6D#8
  | .adcAbsoluteX _ => 0x7D#8
  | .adcAbsoluteY _ => 0x79#8
  | .adcIndexedIndirect _ => 0x61#8
  | .adcIndirectIndexed _ => 0x71#8
  | .sbcImmediate _ => 0xE9#8
  | .sbcZeroPage _ => 0xE5#8
  | .sbcZeroPageX _ => 0xF5#8
  | .sbcAbsolute _ => 0xED#8
  | .sbcAbsoluteX _ => 0xFD#8
  | .sbcAbsoluteY _ => 0xF9#8
  | .sbcIndexedIndirect _ => 0xE1#8
  | .sbcIndirectIndexed _ => 0xF1#8
  | .cmpImmediate _ => 0xC9#8
  | .cmpZeroPage _ => 0xC5#8
  | .cmpZeroPageX _ => 0xD5#8
  | .cmpAbsolute _ => 0xCD#8
  | .cmpAbsoluteX _ => 0xDD#8
  | .cmpAbsoluteY _ => 0xD9#8
  | .cmpIndexedIndirect _ => 0xC1#8
  | .cmpIndirectIndexed _ => 0xD1#8
  | .cpxImmediate _ => 0xE0#8
  | .cpxZeroPage _ => 0xE4#8
  | .cpxAbsolute _ => 0xEC#8
  | .cpyImmediate _ => 0xC0#8
  | .cpyZeroPage _ => 0xC4#8
  | .cpyAbsolute _ => 0xCC#8
  | .bitZeroPage _ => 0x24#8
  | .bitAbsolute _ => 0x2C#8
  | .inx => 0xE8#8
  | .dex => 0xCA#8
  | .iny => 0xC8#8
  | .dey => 0x88#8
  | .incZeroPage _ => 0xE6#8
  | .incZeroPageX _ => 0xF6#8
  | .incAbsolute _ => 0xEE#8
  | .incAbsoluteX _ => 0xFE#8
  | .decZeroPage _ => 0xC6#8
  | .decZeroPageX _ => 0xD6#8
  | .decAbsolute _ => 0xCE#8
  | .decAbsoluteX _ => 0xDE#8
  | .aslAccumulator => 0x0A#8
  | .aslZeroPage _ => 0x06#8
  | .aslZeroPageX _ => 0x16#8
  | .aslAbsolute _ => 0x0E#8
  | .aslAbsoluteX _ => 0x1E#8
  | .lsrAccumulator => 0x4A#8
  | .lsrZeroPage _ => 0x46#8
  | .lsrZeroPageX _ => 0x56#8
  | .lsrAbsolute _ => 0x4E#8
  | .lsrAbsoluteX _ => 0x5E#8
  | .rolAccumulator => 0x2A#8
  | .rolZeroPage _ => 0x26#8
  | .rolZeroPageX _ => 0x36#8
  | .rolAbsolute _ => 0x2E#8
  | .rolAbsoluteX _ => 0x3E#8
  | .rorAccumulator => 0x6A#8
  | .rorZeroPage _ => 0x66#8
  | .rorZeroPageX _ => 0x76#8
  | .rorAbsolute _ => 0x6E#8
  | .rorAbsoluteX _ => 0x7E#8
  | .pha => 0x48#8
  | .php => 0x08#8
  | .pla => 0x68#8
  | .plp => 0x28#8
  | .jmpAbsolute _ => 0x4C#8
  | .jmpIndirect _ => 0x6C#8
  | .jsr _ => 0x20#8
  | .rts => 0x60#8
  | .rti => 0x40#8
  | .brk => 0x00#8
  | .bcc _ => 0x90#8
  | .bcs _ => 0xB0#8
  | .beq _ => 0xF0#8
  | .bne _ => 0xD0#8
  | .bmi _ => 0x30#8
  | .bpl _ => 0x10#8
  | .bvc _ => 0x50#8
  | .bvs _ => 0x70#8
  | .clc => 0x18#8
  | .sec => 0x38#8
  | .cli => 0x58#8
  | .sei => 0x78#8
  | .cld => 0xD8#8
  | .sed => 0xF8#8
  | .clv => 0xB8#8
  | .nop => 0xEA#8

/-- The length of an instruction in bytes: 1 + operand length (R60). -/
def Instr.length (i : Instr) : Nat := 1 + i.operand.length

/-- The bytes of an instruction, the opcode first (R60, R61). -/
def encode (i : Instr) : List Byte := i.opcode :: i.operand.bytes

/-! ### The decode table (R63, R66) -/

/-- A row of the decode table: an opcode with its descriptor, and the instruction its operand bytes `b1` and `b2`
make (a mode that has fewer ignores the rest). -/
structure DecodeRow where
  opcode   : Byte
  mnemonic : Mnemonic
  mode     : AddrMode
  build    : Byte → Byte → Instr

/-- The declared flag set of the row's descriptor (R63, R71). -/
def DecodeRow.declaredFlags (r : DecodeRow) : DeclaredFlags := r.mnemonic.declaredFlags

/-- Row 0x of the opcode map (R66). -/
def opcodeRow0 : List DecodeRow := [
  ⟨0x00#8, .BRK, .implicit, fun _ _ => .brk⟩,
  ⟨0x01#8, .ORA, .indexedIndirect, fun b1 _ => .oraIndexedIndirect b1⟩,
  ⟨0x05#8, .ORA, .zeroPage, fun b1 _ => .oraZeroPage b1⟩,
  ⟨0x06#8, .ASL, .zeroPage, fun b1 _ => .aslZeroPage b1⟩,
  ⟨0x08#8, .PHP, .implicit, fun _ _ => .php⟩,
  ⟨0x09#8, .ORA, .immediate, fun b1 _ => .oraImmediate b1⟩,
  ⟨0x0A#8, .ASL, .accumulator, fun _ _ => .aslAccumulator⟩,
  ⟨0x0D#8, .ORA, .absolute, fun b1 b2 => .oraAbsolute (cat b2 b1)⟩,
  ⟨0x0E#8, .ASL, .absolute, fun b1 b2 => .aslAbsolute (cat b2 b1)⟩]

/-- Row 1x of the opcode map (R66). -/
def opcodeRow1 : List DecodeRow := [
  ⟨0x10#8, .BPL, .relative, fun b1 _ => .bpl b1⟩,
  ⟨0x11#8, .ORA, .indirectIndexed, fun b1 _ => .oraIndirectIndexed b1⟩,
  ⟨0x15#8, .ORA, .zeroPageX, fun b1 _ => .oraZeroPageX b1⟩,
  ⟨0x16#8, .ASL, .zeroPageX, fun b1 _ => .aslZeroPageX b1⟩,
  ⟨0x18#8, .CLC, .implicit, fun _ _ => .clc⟩,
  ⟨0x19#8, .ORA, .absoluteY, fun b1 b2 => .oraAbsoluteY (cat b2 b1)⟩,
  ⟨0x1D#8, .ORA, .absoluteX, fun b1 b2 => .oraAbsoluteX (cat b2 b1)⟩,
  ⟨0x1E#8, .ASL, .absoluteX, fun b1 b2 => .aslAbsoluteX (cat b2 b1)⟩]

/-- Row 2x of the opcode map (R66). -/
def opcodeRow2 : List DecodeRow := [
  ⟨0x20#8, .JSR, .absolute, fun b1 b2 => .jsr (cat b2 b1)⟩,
  ⟨0x21#8, .AND, .indexedIndirect, fun b1 _ => .andIndexedIndirect b1⟩,
  ⟨0x24#8, .BIT, .zeroPage, fun b1 _ => .bitZeroPage b1⟩,
  ⟨0x25#8, .AND, .zeroPage, fun b1 _ => .andZeroPage b1⟩,
  ⟨0x26#8, .ROL, .zeroPage, fun b1 _ => .rolZeroPage b1⟩,
  ⟨0x28#8, .PLP, .implicit, fun _ _ => .plp⟩,
  ⟨0x29#8, .AND, .immediate, fun b1 _ => .andImmediate b1⟩,
  ⟨0x2A#8, .ROL, .accumulator, fun _ _ => .rolAccumulator⟩,
  ⟨0x2C#8, .BIT, .absolute, fun b1 b2 => .bitAbsolute (cat b2 b1)⟩,
  ⟨0x2D#8, .AND, .absolute, fun b1 b2 => .andAbsolute (cat b2 b1)⟩,
  ⟨0x2E#8, .ROL, .absolute, fun b1 b2 => .rolAbsolute (cat b2 b1)⟩]

/-- Row 3x of the opcode map (R66). -/
def opcodeRow3 : List DecodeRow := [
  ⟨0x30#8, .BMI, .relative, fun b1 _ => .bmi b1⟩,
  ⟨0x31#8, .AND, .indirectIndexed, fun b1 _ => .andIndirectIndexed b1⟩,
  ⟨0x35#8, .AND, .zeroPageX, fun b1 _ => .andZeroPageX b1⟩,
  ⟨0x36#8, .ROL, .zeroPageX, fun b1 _ => .rolZeroPageX b1⟩,
  ⟨0x38#8, .SEC, .implicit, fun _ _ => .sec⟩,
  ⟨0x39#8, .AND, .absoluteY, fun b1 b2 => .andAbsoluteY (cat b2 b1)⟩,
  ⟨0x3D#8, .AND, .absoluteX, fun b1 b2 => .andAbsoluteX (cat b2 b1)⟩,
  ⟨0x3E#8, .ROL, .absoluteX, fun b1 b2 => .rolAbsoluteX (cat b2 b1)⟩]

/-- Row 4x of the opcode map (R66). -/
def opcodeRow4 : List DecodeRow := [
  ⟨0x40#8, .RTI, .implicit, fun _ _ => .rti⟩,
  ⟨0x41#8, .EOR, .indexedIndirect, fun b1 _ => .eorIndexedIndirect b1⟩,
  ⟨0x45#8, .EOR, .zeroPage, fun b1 _ => .eorZeroPage b1⟩,
  ⟨0x46#8, .LSR, .zeroPage, fun b1 _ => .lsrZeroPage b1⟩,
  ⟨0x48#8, .PHA, .implicit, fun _ _ => .pha⟩,
  ⟨0x49#8, .EOR, .immediate, fun b1 _ => .eorImmediate b1⟩,
  ⟨0x4A#8, .LSR, .accumulator, fun _ _ => .lsrAccumulator⟩,
  ⟨0x4C#8, .JMP, .absolute, fun b1 b2 => .jmpAbsolute (cat b2 b1)⟩,
  ⟨0x4D#8, .EOR, .absolute, fun b1 b2 => .eorAbsolute (cat b2 b1)⟩,
  ⟨0x4E#8, .LSR, .absolute, fun b1 b2 => .lsrAbsolute (cat b2 b1)⟩]

/-- Row 5x of the opcode map (R66). -/
def opcodeRow5 : List DecodeRow := [
  ⟨0x50#8, .BVC, .relative, fun b1 _ => .bvc b1⟩,
  ⟨0x51#8, .EOR, .indirectIndexed, fun b1 _ => .eorIndirectIndexed b1⟩,
  ⟨0x55#8, .EOR, .zeroPageX, fun b1 _ => .eorZeroPageX b1⟩,
  ⟨0x56#8, .LSR, .zeroPageX, fun b1 _ => .lsrZeroPageX b1⟩,
  ⟨0x58#8, .CLI, .implicit, fun _ _ => .cli⟩,
  ⟨0x59#8, .EOR, .absoluteY, fun b1 b2 => .eorAbsoluteY (cat b2 b1)⟩,
  ⟨0x5D#8, .EOR, .absoluteX, fun b1 b2 => .eorAbsoluteX (cat b2 b1)⟩,
  ⟨0x5E#8, .LSR, .absoluteX, fun b1 b2 => .lsrAbsoluteX (cat b2 b1)⟩]

/-- Row 6x of the opcode map (R66). -/
def opcodeRow6 : List DecodeRow := [
  ⟨0x60#8, .RTS, .implicit, fun _ _ => .rts⟩,
  ⟨0x61#8, .ADC, .indexedIndirect, fun b1 _ => .adcIndexedIndirect b1⟩,
  ⟨0x65#8, .ADC, .zeroPage, fun b1 _ => .adcZeroPage b1⟩,
  ⟨0x66#8, .ROR, .zeroPage, fun b1 _ => .rorZeroPage b1⟩,
  ⟨0x68#8, .PLA, .implicit, fun _ _ => .pla⟩,
  ⟨0x69#8, .ADC, .immediate, fun b1 _ => .adcImmediate b1⟩,
  ⟨0x6A#8, .ROR, .accumulator, fun _ _ => .rorAccumulator⟩,
  ⟨0x6C#8, .JMP, .indirect, fun b1 b2 => .jmpIndirect (cat b2 b1)⟩,
  ⟨0x6D#8, .ADC, .absolute, fun b1 b2 => .adcAbsolute (cat b2 b1)⟩,
  ⟨0x6E#8, .ROR, .absolute, fun b1 b2 => .rorAbsolute (cat b2 b1)⟩]

/-- Row 7x of the opcode map (R66). -/
def opcodeRow7 : List DecodeRow := [
  ⟨0x70#8, .BVS, .relative, fun b1 _ => .bvs b1⟩,
  ⟨0x71#8, .ADC, .indirectIndexed, fun b1 _ => .adcIndirectIndexed b1⟩,
  ⟨0x75#8, .ADC, .zeroPageX, fun b1 _ => .adcZeroPageX b1⟩,
  ⟨0x76#8, .ROR, .zeroPageX, fun b1 _ => .rorZeroPageX b1⟩,
  ⟨0x78#8, .SEI, .implicit, fun _ _ => .sei⟩,
  ⟨0x79#8, .ADC, .absoluteY, fun b1 b2 => .adcAbsoluteY (cat b2 b1)⟩,
  ⟨0x7D#8, .ADC, .absoluteX, fun b1 b2 => .adcAbsoluteX (cat b2 b1)⟩,
  ⟨0x7E#8, .ROR, .absoluteX, fun b1 b2 => .rorAbsoluteX (cat b2 b1)⟩]

/-- Row 8x of the opcode map (R66). -/
def opcodeRow8 : List DecodeRow := [
  ⟨0x81#8, .STA, .indexedIndirect, fun b1 _ => .staIndexedIndirect b1⟩,
  ⟨0x84#8, .STY, .zeroPage, fun b1 _ => .styZeroPage b1⟩,
  ⟨0x85#8, .STA, .zeroPage, fun b1 _ => .staZeroPage b1⟩,
  ⟨0x86#8, .STX, .zeroPage, fun b1 _ => .stxZeroPage b1⟩,
  ⟨0x88#8, .DEY, .implicit, fun _ _ => .dey⟩,
  ⟨0x8A#8, .TXA, .implicit, fun _ _ => .txa⟩,
  ⟨0x8C#8, .STY, .absolute, fun b1 b2 => .styAbsolute (cat b2 b1)⟩,
  ⟨0x8D#8, .STA, .absolute, fun b1 b2 => .staAbsolute (cat b2 b1)⟩,
  ⟨0x8E#8, .STX, .absolute, fun b1 b2 => .stxAbsolute (cat b2 b1)⟩]

/-- Row 9x of the opcode map (R66). -/
def opcodeRow9 : List DecodeRow := [
  ⟨0x90#8, .BCC, .relative, fun b1 _ => .bcc b1⟩,
  ⟨0x91#8, .STA, .indirectIndexed, fun b1 _ => .staIndirectIndexed b1⟩,
  ⟨0x94#8, .STY, .zeroPageX, fun b1 _ => .styZeroPageX b1⟩,
  ⟨0x95#8, .STA, .zeroPageX, fun b1 _ => .staZeroPageX b1⟩,
  ⟨0x96#8, .STX, .zeroPageY, fun b1 _ => .stxZeroPageY b1⟩,
  ⟨0x98#8, .TYA, .implicit, fun _ _ => .tya⟩,
  ⟨0x99#8, .STA, .absoluteY, fun b1 b2 => .staAbsoluteY (cat b2 b1)⟩,
  ⟨0x9A#8, .TXS, .implicit, fun _ _ => .txs⟩,
  ⟨0x9D#8, .STA, .absoluteX, fun b1 b2 => .staAbsoluteX (cat b2 b1)⟩]

/-- Row Ax of the opcode map (R66). -/
def opcodeRowA : List DecodeRow := [
  ⟨0xA0#8, .LDY, .immediate, fun b1 _ => .ldyImmediate b1⟩,
  ⟨0xA1#8, .LDA, .indexedIndirect, fun b1 _ => .ldaIndexedIndirect b1⟩,
  ⟨0xA2#8, .LDX, .immediate, fun b1 _ => .ldxImmediate b1⟩,
  ⟨0xA4#8, .LDY, .zeroPage, fun b1 _ => .ldyZeroPage b1⟩,
  ⟨0xA5#8, .LDA, .zeroPage, fun b1 _ => .ldaZeroPage b1⟩,
  ⟨0xA6#8, .LDX, .zeroPage, fun b1 _ => .ldxZeroPage b1⟩,
  ⟨0xA8#8, .TAY, .implicit, fun _ _ => .tay⟩,
  ⟨0xA9#8, .LDA, .immediate, fun b1 _ => .ldaImmediate b1⟩,
  ⟨0xAA#8, .TAX, .implicit, fun _ _ => .tax⟩,
  ⟨0xAC#8, .LDY, .absolute, fun b1 b2 => .ldyAbsolute (cat b2 b1)⟩,
  ⟨0xAD#8, .LDA, .absolute, fun b1 b2 => .ldaAbsolute (cat b2 b1)⟩,
  ⟨0xAE#8, .LDX, .absolute, fun b1 b2 => .ldxAbsolute (cat b2 b1)⟩]

/-- Row Bx of the opcode map (R66). -/
def opcodeRowB : List DecodeRow := [
  ⟨0xB0#8, .BCS, .relative, fun b1 _ => .bcs b1⟩,
  ⟨0xB1#8, .LDA, .indirectIndexed, fun b1 _ => .ldaIndirectIndexed b1⟩,
  ⟨0xB4#8, .LDY, .zeroPageX, fun b1 _ => .ldyZeroPageX b1⟩,
  ⟨0xB5#8, .LDA, .zeroPageX, fun b1 _ => .ldaZeroPageX b1⟩,
  ⟨0xB6#8, .LDX, .zeroPageY, fun b1 _ => .ldxZeroPageY b1⟩,
  ⟨0xB8#8, .CLV, .implicit, fun _ _ => .clv⟩,
  ⟨0xB9#8, .LDA, .absoluteY, fun b1 b2 => .ldaAbsoluteY (cat b2 b1)⟩,
  ⟨0xBA#8, .TSX, .implicit, fun _ _ => .tsx⟩,
  ⟨0xBC#8, .LDY, .absoluteX, fun b1 b2 => .ldyAbsoluteX (cat b2 b1)⟩,
  ⟨0xBD#8, .LDA, .absoluteX, fun b1 b2 => .ldaAbsoluteX (cat b2 b1)⟩,
  ⟨0xBE#8, .LDX, .absoluteY, fun b1 b2 => .ldxAbsoluteY (cat b2 b1)⟩]

/-- Row Cx of the opcode map (R66). -/
def opcodeRowC : List DecodeRow := [
  ⟨0xC0#8, .CPY, .immediate, fun b1 _ => .cpyImmediate b1⟩,
  ⟨0xC1#8, .CMP, .indexedIndirect, fun b1 _ => .cmpIndexedIndirect b1⟩,
  ⟨0xC4#8, .CPY, .zeroPage, fun b1 _ => .cpyZeroPage b1⟩,
  ⟨0xC5#8, .CMP, .zeroPage, fun b1 _ => .cmpZeroPage b1⟩,
  ⟨0xC6#8, .DEC, .zeroPage, fun b1 _ => .decZeroPage b1⟩,
  ⟨0xC8#8, .INY, .implicit, fun _ _ => .iny⟩,
  ⟨0xC9#8, .CMP, .immediate, fun b1 _ => .cmpImmediate b1⟩,
  ⟨0xCA#8, .DEX, .implicit, fun _ _ => .dex⟩,
  ⟨0xCC#8, .CPY, .absolute, fun b1 b2 => .cpyAbsolute (cat b2 b1)⟩,
  ⟨0xCD#8, .CMP, .absolute, fun b1 b2 => .cmpAbsolute (cat b2 b1)⟩,
  ⟨0xCE#8, .DEC, .absolute, fun b1 b2 => .decAbsolute (cat b2 b1)⟩]

/-- Row Dx of the opcode map (R66). -/
def opcodeRowD : List DecodeRow := [
  ⟨0xD0#8, .BNE, .relative, fun b1 _ => .bne b1⟩,
  ⟨0xD1#8, .CMP, .indirectIndexed, fun b1 _ => .cmpIndirectIndexed b1⟩,
  ⟨0xD5#8, .CMP, .zeroPageX, fun b1 _ => .cmpZeroPageX b1⟩,
  ⟨0xD6#8, .DEC, .zeroPageX, fun b1 _ => .decZeroPageX b1⟩,
  ⟨0xD8#8, .CLD, .implicit, fun _ _ => .cld⟩,
  ⟨0xD9#8, .CMP, .absoluteY, fun b1 b2 => .cmpAbsoluteY (cat b2 b1)⟩,
  ⟨0xDD#8, .CMP, .absoluteX, fun b1 b2 => .cmpAbsoluteX (cat b2 b1)⟩,
  ⟨0xDE#8, .DEC, .absoluteX, fun b1 b2 => .decAbsoluteX (cat b2 b1)⟩]

/-- Row Ex of the opcode map (R66). -/
def opcodeRowE : List DecodeRow := [
  ⟨0xE0#8, .CPX, .immediate, fun b1 _ => .cpxImmediate b1⟩,
  ⟨0xE1#8, .SBC, .indexedIndirect, fun b1 _ => .sbcIndexedIndirect b1⟩,
  ⟨0xE4#8, .CPX, .zeroPage, fun b1 _ => .cpxZeroPage b1⟩,
  ⟨0xE5#8, .SBC, .zeroPage, fun b1 _ => .sbcZeroPage b1⟩,
  ⟨0xE6#8, .INC, .zeroPage, fun b1 _ => .incZeroPage b1⟩,
  ⟨0xE8#8, .INX, .implicit, fun _ _ => .inx⟩,
  ⟨0xE9#8, .SBC, .immediate, fun b1 _ => .sbcImmediate b1⟩,
  ⟨0xEA#8, .NOP, .implicit, fun _ _ => .nop⟩,
  ⟨0xEC#8, .CPX, .absolute, fun b1 b2 => .cpxAbsolute (cat b2 b1)⟩,
  ⟨0xED#8, .SBC, .absolute, fun b1 b2 => .sbcAbsolute (cat b2 b1)⟩,
  ⟨0xEE#8, .INC, .absolute, fun b1 b2 => .incAbsolute (cat b2 b1)⟩]

/-- Row Fx of the opcode map (R66). -/
def opcodeRowF : List DecodeRow := [
  ⟨0xF0#8, .BEQ, .relative, fun b1 _ => .beq b1⟩,
  ⟨0xF1#8, .SBC, .indirectIndexed, fun b1 _ => .sbcIndirectIndexed b1⟩,
  ⟨0xF5#8, .SBC, .zeroPageX, fun b1 _ => .sbcZeroPageX b1⟩,
  ⟨0xF6#8, .INC, .zeroPageX, fun b1 _ => .incZeroPageX b1⟩,
  ⟨0xF8#8, .SED, .implicit, fun _ _ => .sed⟩,
  ⟨0xF9#8, .SBC, .absoluteY, fun b1 b2 => .sbcAbsoluteY (cat b2 b1)⟩,
  ⟨0xFD#8, .SBC, .absoluteX, fun b1 b2 => .sbcAbsoluteX (cat b2 b1)⟩,
  ⟨0xFE#8, .INC, .absoluteX, fun b1 b2 => .incAbsoluteX (cat b2 b1)⟩]

/-- The decode table: the 151 rows (R63). -/
def opcodeTable : List DecodeRow :=
  opcodeRow0 ++ opcodeRow1 ++ opcodeRow2 ++ opcodeRow3 ++ opcodeRow4 ++ opcodeRow5 ++ opcodeRow6 ++ opcodeRow7 ++
  opcodeRow8 ++ opcodeRow9 ++ opcodeRowA ++ opcodeRowB ++ opcodeRowC ++ opcodeRowD ++ opcodeRowE ++ opcodeRowF

/-- `decode : u8 → Descriptor or Unknown` (R63): the row of an opcode byte, or none. -/
def lookup (op : Byte) : Option DecodeRow := opcodeTable.find? fun r => r.opcode == op

/-- The instruction a row makes of its operand bytes (R62). -/
def DecodeRow.instr (r : DecodeRow) (bytes : List Byte) : Instr := r.build (bytes.getD 0 0) (bytes.getD 1 0)

/-- Why bytes are no instruction. -/
inductive DecodeError where
  /-- There is no byte. -/
  | noOpcode
  /-- The opcode byte has no descriptor (R64, R68). -/
  | unknownOpcode (op : Byte)
  /-- The operand bytes of a known opcode are missing. -/
  | missingOperand (op : Byte)
  deriving DecidableEq, Repr

/-- The decoder on bytes: the first instruction and the bytes after it. -/
def decode : List Byte → Except DecodeError (Instr × List Byte)
  | [] => .error .noOpcode
  | op :: rest =>
    match lookup op with
    | none => .error (.unknownOpcode op)
    | some row =>
      if rest.length < row.mode.operandLength then .error (.missingOperand op)
      else .ok (row.instr rest, rest.drop row.mode.operandLength)

/-! ### The host's numbering of an instruction's bits -/

/-- The three bytes, first byte lowest, of the instruction whose low `nbits` bits are `w` and whose other bits
are 0. -/
def tableWordBytes (nbits w : Nat) : List Byte :=
  let v := w % 2 ^ nbits
  [BitVec.ofNat 8 v, BitVec.ofNat 8 (v / 256), BitVec.ofNat 8 (v / 65536)]

/-- The instruction the decoder reads from a table word. -/
def decodeTableWord (nbits w : Nat) : Option Instr :=
  match decode (tableWordBytes nbits w) with
  | .ok (i, _) => some i
  | .error _ => none

end Sys2Proof
end

