-- ==== Sys2Proof/Config.lean ====
section
/-! DEFINITION. The named parameters of rule R6. They are plain data, fixed for one machine: `State` carries
them in its field `cfg`, which no step writes, so a statement over all states ranges over all parameters. -/

namespace Sys2Proof

/-- The kinds of owner behind the bus (R6, R43). -/
inductive OwnerKind where
  | ram | ppu | apu | rom
  deriving DecidableEq, Repr

/-- A memory owner: an inclusive address range and a kind (R42). -/
structure Owner where
  start : Addr
  stop  : Addr
  kind  : OwnerKind
  deriving DecidableEq, Repr

/-- `BRK_MODE` (R6, R194). -/
inductive BrkMode where
  | vector | refuse
  deriving DecidableEq, Repr

/-- The parameters of R6. -/
structure Config where
  /-- `OWNERS` (R42). -/
  owners        : List Owner
  /-- `INITIAL_MEMORY` (R36): the bytes that differ from `0x00`, as cells with rising addresses. Every contents
  of the 65536 addresses has exactly one such list. -/
  initialMemory : List Host.Cell
  /-- `INITIAL_PC` (R36, R241). -/
  initialPc     : Addr
  /-- `RETURN_BIAS`, 0 or 1 (R191, R192). -/
  returnBias    : Fin 2
  /-- `ZP_POINTER_WRAP` (R112, R113). -/
  zpPointerWrap : Bool
  /-- `BRK_MODE` (R194). -/
  brkMode       : BrkMode
  deriving DecidableEq, Repr

/-- The parameters `State.reset` takes: the defaults of R6 where R6 gives one. R6 leaves `OWNERS` and
`INITIAL_MEMORY` open: DESIGN CHOICE, one RAM owner over the whole address space (notes/assumptions/1.md) and every
byte `0x00` (notes/assumptions/2.md). Unsafe, as the log says: no statement about a step rests on either. -/
def Config.default : Config where
  owners        := [⟨0x0000#16, 0xFFFF#16, .ram⟩]
  initialMemory := []
  initialPc     := 0x0000#16
  returnBias    := 0
  zpPointerWrap := true
  brkMode       := .vector

end Sys2Proof
end

