-- ==== Sys2Proof/Machine/State.lean ====
section
/-! DEFINITION. The state of the block (spec/10): the registers of R20, the flags of R27, memory, the run status of
R35, the trace records emitted so far (R89) and the parameters of R6; the reasons a step stops; the state after
start-up (R36). -/

namespace Sys2Proof.Machine

/-- The status register P, one boolean per flag in the order of the bits, bit 0 first (R27). -/
structure Flags where
  c  : Bool
  z  : Bool
  i  : Bool
  d  : Bool
  b4 : Bool
  b5 : Bool
  v  : Bool
  n  : Bool
  deriving DecidableEq, Repr

/-- The fatal errors a running program can cause (R220). Each is the block's own fault, named by the spec: stopping
here is what the hardware does (safe). -/
inductive Fault where
  /-- Raised by Identify when the byte at PC has no descriptor (R64, R221): the opcode and the address. Safe. -/
  | unknownOpcode (opcode : Byte) (pc : Addr)
  /-- Raised by any access to an address no owner covers (R41, R222): the address. Safe. -/
  | unmappedMemoryAddress (addr : Addr)
  /-- Raised by a write to a ROM owner (R41, R223): the address. Safe. -/
  | readOnlyWriteViolation (addr : Addr)
  deriving DecidableEq, Repr

/-- Why a step is refused. -/
inductive Refusal where
  /-- An arm of `exec` that has no meaning yet. No arm of this model raises it. Safe. -/
  | notModelled (mnemonic : String)
  /-- Raised by BRK when `BRK_MODE = refuse` (R35, R194): the opcode 0x00 and its address. The spec's own refusal:
  safe. -/
  | brkRefused (opcode : Byte) (pc : Addr)
  /-- Raised by `step` on a halted state: no step leaves `Halted` (R35). Safe. -/
  | halted
  deriving DecidableEq, Repr

/-- The run status (R35). -/
inductive RunStatus where
  | running
  | halted
  | faulted (fault : Fault)
  | refused (opcode : Byte) (pc : Addr)
  deriving DecidableEq, Repr

/-- A trace record (R89): the address, name and operand bytes of a completed instruction, and the registers as they
were before it executed. -/
structure TraceRecord where
  pc       : Addr
  mnemonic : Mnemonic
  operands : List Byte
  a        : Byte
  x        : Byte
  y        : Byte
  p        : Byte
  sp       : Byte
  deriving DecidableEq, Repr

/-- The bytes behind the bus, of all owners together: ownership of an address is exclusive (R42), so one list of cells
holds them. Canonical form: `CellsCanonical`. -/
abbrev Memory := List Host.Cell

/-- The state of the block. -/
structure State where
  /-- The parameters of R6; no step writes them. -/
  cfg   : Config
  /-- Program counter (R25). -/
  pc    : Addr
  /-- Stack pointer, an offset into page 1 (R26). -/
  sp    : Byte
  /-- Accumulator (R21). -/
  a     : Byte
  /-- Index register X (R22). -/
  x     : Byte
  /-- Index register Y (R23). -/
  y     : Byte
  /-- Status register (R27). -/
  p     : Flags
  /-- The bytes behind the bus (R40, R43). -/
  mem   : Memory
  /-- The run status (R35). -/
  run   : RunStatus
  /-- The trace records emitted so far, the newest first (R89). -/
  trace : List TraceRecord
  deriving DecidableEq, Repr

/-- The flags at start-up: "interrupt flag set, all else clear" (R36). -/
def Flags.startup : Flags where
  c := false
  z := false
  i := true
  d := false
  b4 := false
  b5 := false
  v := false
  n := false

/-- The state after start-up under given parameters (R36, R240): memory is what the owners hold, and the block does
not write it. -/
def State.start (cfg : Config) : State where
  cfg := cfg
  pc := cfg.initialPc
  sp := 0xFD#8
  a := 0x00#8
  x := 0x00#8
  y := 0x00#8
  p := Flags.startup
  mem := cfg.initialMemory
  run := .running
  trace := []

/-- The machine right after reset: start-up (R36) under `Config.default`. -/
def State.reset : State := State.start Config.default

end Sys2Proof.Machine
end

