-- ==== Sys2Proof/Machine/Flags.lean ====
section
/-! DEFINITION. The status register as a byte (R28, R29), the generic flag update (R85) and the ALU functions with
the carry and overflow they compute (R140, R141, R167 to R170). -/

namespace Sys2Proof.Machine

/-! ### P as a byte -/

/-- `to_int(P)`: the flag at bit i, shifted left i, summed (R28). -/
def Flags.toInt (p : Flags) : Byte :=
  BitVec.ofNat 8 (p.c.toNat + 2 * p.z.toNat + 4 * p.i.toNat + 8 * p.d.toNat + 16 * p.b4.toNat + 32 * p.b5.toNat
    + 64 * p.v.toNat + 128 * p.n.toNat)

/-- The flag at bit `k` after `from_int`: the byte's bit, or the old flag where `k` is ignored (R29). -/
def fromIntBit (b : Byte) (ignored : List Nat) (k : Nat) (old : Bool) : Bool :=
  if ignored.contains k then old else b.getLsbD k

/-- `from_int(b, ignored)` on the flags `p` (R29). -/
def Flags.fromInt (b : Byte) (ignored : List Nat) (p : Flags) : Flags where
  c := fromIntBit b ignored 0 p.c
  z := fromIntBit b ignored 1 p.z
  i := fromIntBit b ignored 2 p.i
  d := fromIntBit b ignored 3 p.d
  b4 := fromIntBit b ignored 4 p.b4
  b5 := fromIntBit b ignored 5 p.b5
  v := fromIntBit b ignored 6 p.v
  n := fromIntBit b ignored 7 p.n

/-- The byte a push of P writes: `to_int(P) | 0x30` (R31). -/
def Flags.pushed (p : Flags) : Byte := p.toInt ||| 0x30#8

/-- A pull into P: `from_int(b, {4, 5})` (R31). -/
def Flags.pulled (b : Byte) (p : Flags) : Flags := p.fromInt b [4, 5]

/-! ### The generic flag update -/

/-- `FlagUpdate(declared, res)` (R85): Z and N from the result value, where they are declared; C and V never. -/
def Flags.update (declared : DeclaredFlags) (res : Option Byte) (p : Flags) : Flags :=
  match res with
  | none => p
  | some r =>
    { p with
      z := if declared.z then r == 0#8 else p.z
      n := if declared.n then r.getLsbD 7 else p.n }

/-! ### The ALU -/

/-- What the adder answers: `sum8`, `c` and `v` of R140. -/
structure AluSum where
  sum8 : Byte
  c    : Bool
  v    : Bool
  deriving DecidableEq, Repr

/-- `ALU_ADD(a, m, cin)` (R140). -/
def aluAdd (a m : Byte) (cin : Bool) : AluSum :=
  let s := a.toNat + m.toNat + cin.toNat
  let sum8 := BitVec.ofNat 8 s
  { sum8 := sum8
    c := decide (s ≥ 256)
    v := ((a ^^^ sum8) &&& (m ^^^ sum8) &&& 0x80#8) != 0#8 }

/-- A byte and a carry: what the comparator and the shifter answer. -/
structure AluCarry where
  value : Byte
  c     : Bool
  deriving DecidableEq, Repr

/-- `ALU_CMP(r, m)` (R141): the low 8 bits of the difference, and carry exactly when `r >= m` unsigned. -/
def aluCmp (r m : Byte) : AluCarry where
  value := r - m
  c := decide (m.toNat ≤ r.toNat)

/-- ASL (R167). -/
def aluAsl (m : Byte) (_cin : Bool) : AluCarry where
  value := m <<< 1
  c := m.getLsbD 7

/-- LSR (R168). -/
def aluLsr (m : Byte) (_cin : Bool) : AluCarry where
  value := m >>> 1
  c := m.getLsbD 0

/-- ROL (R169): `(m << 1) | cin`. -/
def aluRol (m : Byte) (cin : Bool) : AluCarry where
  value := (m <<< 1) ||| BitVec.ofNat 8 cin.toNat
  c := m.getLsbD 7

/-- ROR (R170): `(m >> 1) | (cin << 7)`. -/
def aluRor (m : Byte) (cin : Bool) : AluCarry where
  value := (m >>> 1) ||| (BitVec.ofNat 8 cin.toNat <<< 7)
  c := m.getLsbD 0

end Sys2Proof.Machine
end

