-- ==== Sys2Proof/WellFormed.lean ====
section
/-! DEFINITION. The checks on what is handed to the machine: the owner map (R42), the initial memory (R36), the
parameters as a whole (R6) and the decode table (R224). An instruction needs no check of its own: `Instr` holds exactly
the operand bytes and every value of them is legal (R68). -/

namespace Sys2Proof

/-- A range runs from its start to its end (R42). -/
abbrev Owner.WellFormed (o : Owner) : Prop := o.start ≤ o.stop

/-- Two ranges share no address (R42). -/
abbrev Owner.Disjoint (o p : Owner) : Prop := o.stop < p.start ∨ p.stop < o.start

/-- "Contiguous, non-overlapping" ranges (R42). -/
abbrev OwnerMapWellFormed (os : List Owner) : Prop :=
  (∀ o ∈ os, o.WellFormed) ∧ os.Pairwise Owner.Disjoint

/-- A list of cells in canonical form: addresses strictly rising and inside the 16-bit space (R40), no cell equal to
`blank`, what an unlisted address reads as. -/
abbrev CellsCanonical (blank : Byte) (m : List Host.Cell) : Prop :=
  m.Pairwise (fun c d => c.1 < d.1) ∧ ∀ c ∈ m, c.1 < 65536 ∧ c.2 ≠ blank

/-- Every listed cell lies in an owner (R36: an owner holds the bytes of its own addresses). -/
abbrev CellsOwned (os : List Owner) (m : List Host.Cell) : Prop :=
  ∀ c ∈ m, ∃ o ∈ os, o.start ≤ BitVec.ofNat 16 c.1 ∧ BitVec.ofNat 16 c.1 ≤ o.stop

/-- The parameters are ones the block can be built with (R6, R42). -/
abbrev Config.WellFormed (c : Config) : Prop :=
  OwnerMapWellFormed c.owners ∧ CellsCanonical 0 c.initialMemory ∧ CellsOwned c.owners c.initialMemory

/-- No two descriptors share an opcode: the check R224 (`DuplicateOpcodeRegistration`) asks of a table built from a
list. -/
abbrev OpcodesDistinct (opcodes : List Byte) : Prop := opcodes.Nodup

end Sys2Proof
end

