-- ==== Sys2Proof/Machine/Ops.lean ====
section
/-! DEFINITION. The named operations over memory and registers: memory as cells (R43), the bus (R41, R42), the stack
(spec/45), the software trap and its return (R193, R194, R229, R230), the trace record (R89) and the host's halt
(R90). -/

namespace Sys2Proof.Machine

/-! ### Extensions (R9) -/

/-- `zext_16(b)`. -/
def zext16 (b : Byte) : Addr := b.zeroExtend 16

/-- `sext_16(b)`: `b` if `b < 0x80`, else `b + 0xFF00`. -/
def sext16 (b : Byte) : Addr := b.signExtend 16

/-! ### Memory as cells -/

/-- What an unlisted address reads as. `INITIAL_MEMORY` is a parameter (R6), and its cells list every byte that differs
from this one. DESIGN CHOICE (notes/assumptions/2.md): for reset, which lists nothing. -/
def Memory.blank : Byte := 0x00#8

/-- The canonical form of memory. -/
abbrev Memory.wf (m : Memory) : Prop := CellsCanonical Memory.blank m

/-- The byte at an address (R43). -/
def Memory.read : Memory → Nat → Byte
  | [], _ => Memory.blank
  | (k, u) :: m, a => if a = k then u else Memory.read m a

/-- The cells with the byte `v` at `a`: put in order, an old cell at `a` replaced. -/
def Memory.insert : Memory → Nat → Byte → Memory
  | [], a, v => [(a, v)]
  | (k, u) :: m, a, v =>
    if a < k then (a, v) :: (k, u) :: m
    else if a = k then (a, v) :: m
    else (k, u) :: Memory.insert m a v

/-- The cells with none at `a`. -/
def Memory.erase (m : Memory) (a : Nat) : Memory := m.filter fun c => c.1 != a

/-- The cells with the byte at one address replaced, in canonical form (R43, R44). -/
def Memory.write (m : Memory) (a : Nat) (v : Byte) : Memory :=
  if v = Memory.blank then Memory.erase m a else Memory.insert m a v

/-! ### Registers -/

/-- `PC <- w`. -/
def State.setPc (s : State) (w : Addr) : State := { s with pc := w }
/-- `SP <- v`. -/
def State.setSp (s : State) (v : Byte) : State := { s with sp := v }
/-- `A <- v`. -/
def State.setA (s : State) (v : Byte) : State := { s with a := v }
/-- `X <- v`. -/
def State.setX (s : State) (v : Byte) : State := { s with x := v }
/-- `Y <- v`. -/
def State.setY (s : State) (v : Byte) : State := { s with y := v }
/-- `P <- p`. -/
def State.setP (s : State) (p : Flags) : State := { s with p := p }
/-- Replace memory; used by the bus write alone. -/
def State.setMem (s : State) (m : Memory) : State := { s with mem := m }
/-- Replace the run status (R35). -/
def State.setRun (s : State) (r : RunStatus) : State := { s with run := r }
/-- Emit a trace record (R89). -/
def State.emit (s : State) (r : TraceRecord) : State := { s with trace := r :: s.trace }

/-- The PC advance of R82: past the opcode and `operandLength` operand bytes, modulo 65536. -/
def State.advancePc (s : State) (operandLength : Nat) : State := s.setPc (s.pc + BitVec.ofNat 16 (1 + operandLength))

/-! ### The bus -/

/-- The owner's inclusive range holds the address (R42). -/
def Owner.covers (o : Owner) (a : Addr) : Bool := decide (o.start ≤ a) && decide (a ≤ o.stop)

/-- `owner_of(addr)` (R42): "first match wins". -/
def ownerOf (cfg : Config) (a : Addr) : Option Owner := cfg.owners.find? fun o => Owner.covers o a

/-- `MemRead(addr, 1)` (R41). A read changes nothing (R44). -/
def memRead (s : State) (a : Addr) : Except Fault Byte :=
  match ownerOf s.cfg a with
  | none => .error (.unmappedMemoryAddress a)
  | some _ => .ok (Memory.read s.mem a.toNat)

/-- `MemWrite(addr, 1, v)` (R41). -/
def memWrite (s : State) (a : Addr) (v : Byte) : Except Fault State :=
  match ownerOf s.cfg a with
  | none => .error (.unmappedMemoryAddress a)
  | some o =>
    if o.kind = .rom then .error (.readOnlyWriteViolation a)
    else .ok (s.setMem (Memory.write s.mem a.toNat v))

/-! ### The stack -/

/-- The address the stack pointer designates: `0x0100 + SP` (R26). -/
def stackAddr (sp : Byte) : Addr := 0x0100#16 + zext16 sp

/-- `Push(v)` (R180): write, then decrement SP modulo 256. -/
def push (v : Byte) (s : State) : Except Fault State := do
  let s1 ← memWrite s (stackAddr s.sp) v
  return s1.setSp (s1.sp - 1#8)

/-- `Pull()` (R181): increment SP modulo 256, then read. -/
def pull (s : State) : Except Fault (Byte × State) := do
  let s1 := s.setSp (s.sp + 1#8)
  let v ← memRead s1 (stackAddr s1.sp)
  return (v, s1)

/-- `Push16(w)` (R182): the high byte first. -/
def push16 (w : Addr) (s : State) : Except Fault State := do
  let s1 ← push (highByte w) s
  push (lowByte w) s1

/-- `Pull16()` (R183): the low byte first. -/
def pull16 (s : State) : Except Fault (Addr × State) := do
  let (lo, s1) ← pull s
  let (hi, s2) ← pull s1
  return (cat hi lo, s2)

/-! ### The software trap and the return from it -/

/-- The entry BRK takes (R194, R229), on the state after the PC advance: the address after the padding byte and then
the status with bits 4 and 5 set go on the stack, I is set, and PC comes from 0xFFFE and 0xFFFF. -/
def enterBreak (s : State) : Except Fault State := do
  let s1 ← push16 (s.pc + 1#16) s
  let s2 ← push s1.p.pushed s1
  let s3 := s2.setP { s2.p with i := true }
  let lo ← memRead s3 0xFFFE#16
  let hi ← memRead s3 0xFFFF#16
  return s3.setPc (cat hi lo)

/-- The return RTI makes (R193, R230): P without bits 4 and 5, then PC. -/
def returnFromBreak (s : State) : Except Fault State := do
  let (b, s1) ← pull s
  let s2 := s1.setP (s1.p.pulled b)
  let (w, s3) ← pull16 s2
  return s3.setPc w

/-! ### Trace and halt -/

/-- The trace record of an instruction that starts in `s` (R89): every field as it is before Execute. -/
def traceRecord (s : State) (m : Mnemonic) (operands : List Byte) : TraceRecord where
  pc := s.pc
  mnemonic := m
  operands := operands
  a := s.a
  x := s.x
  y := s.y
  p := s.p.toInt
  sp := s.sp

/-- The host's halt move (R90), enabled between steps while the status is `Running`. -/
def hostHalt (s : State) : State :=
  match s.run with
  | .running => s.setRun .halted
  | .halted | .faulted _ | .refused _ _ => s

/-- The numeric code of a fault kind (R220). -/
def Fault.code : Fault → Nat
  | .unknownOpcode _ _ => 1
  | .unmappedMemoryAddress _ => 2
  | .readOnlyWriteViolation _ => 3

end Sys2Proof.Machine
end

