-- ==== Sys2Proof/Machine/Operands.lean ====
section
/-! DEFINITION. The addressing-mode resolver (spec/41), operand access by the semantics (R114), and the frame every
instruction runs in: PC advance, semantics, flag update (R80, R82, R84, R85). Every function here but `execute` runs
with `PC = PCpost`. -/

namespace Sys2Proof.Machine

/-! ### The resolver -/

/-- A pointer's target: the low byte at `lo`, then the high byte at `hi` (R111 to R113). -/
def readPointer (s : State) (lo hi : Addr) : Except Fault Addr := do
  let l ← memRead s lo
  let h ← memRead s hi
  return cat h l

/-- Where the high byte of a zero-page pointer at `p` lies (R112, R113): `ZP_POINTER_WRAP` decides at 0xFF. -/
def zpHighAddr (s : State) (p : Byte) : Addr :=
  if s.cfg.zpPointerWrap then zext16 (p + 1#8) else zext16 p + 1#16

/-- Where the high byte of an indirect JMP's pointer lies: in the same page (R111). -/
def pageHighAddr (ptr : Addr) : Addr := (ptr &&& 0xFF00#16) ||| ((ptr + 1#16) &&& 0x00FF#16)

/-- The effective address `EA` (R104 to R113). -/
def effectiveAddr (m : EaOperand) (s : State) : Except Fault Addr :=
  match m with
  | .zeroPage b => .ok (zext16 b)
  | .zeroPageX b => .ok (zext16 (b + s.x))
  | .zeroPageY b => .ok (zext16 (b + s.y))
  | .absolute w => .ok w
  | .absoluteX w => .ok (w + zext16 s.x)
  | .absoluteY w => .ok (w + zext16 s.y)
  | .relative off => .ok (s.pc + sext16 off)
  | .indirect ptr => readPointer s ptr (pageHighAddr ptr)
  | .indexedIndirect b => readPointer s (zext16 (b + s.x)) (zpHighAddr s (b + s.x))
  | .indirectIndexed b => do
    let w ← readPointer s (zext16 b) (zpHighAddr s b)
    return w + zext16 s.y

/-! ### Operand access (R114) -/

/-- What an instruction that only reads its operand may have: the Immediate mode, or a mode with an address. -/
inductive Source where
  | immediate (value : Byte)
  | ea (operand : EaOperand)
  deriving DecidableEq, Repr

def Source.operand : Source → Operand
  | .immediate v => .immediate v
  | .ea m => .ea m

/-- `get_data()` of an instruction that only reads its operand (R114). -/
def Source.getData (src : Source) (s : State) : Except Fault Byte :=
  match src with
  | .immediate v => .ok v
  | .ea m => do
    let ea ← effectiveAddr m s
    memRead s ea

/-- What a read-modify-write instruction may have: the Accumulator mode, or a mode with an address. -/
inductive Place where
  | accumulator
  | ea (operand : EaOperand)
  deriving DecidableEq, Repr

def Place.operand : Place → Operand
  | .accumulator => .accumulator
  | .ea m => .ea m

/-- A resolved place: the accumulator, or an effective address. -/
inductive Target where
  | accumulator
  | address (ea : Addr)
  deriving DecidableEq, Repr

/-- Resolve a place, once (R83, R160). -/
def Place.resolve (pl : Place) (s : State) : Except Fault Target :=
  match pl with
  | .accumulator => .ok .accumulator
  | .ea m => do
    let ea ← effectiveAddr m s
    return .address ea

/-- `get_data()` of a resolved place (R114). -/
def Target.getData (t : Target) (s : State) : Except Fault Byte :=
  match t with
  | .accumulator => .ok s.a
  | .address ea => memRead s ea

/-- `put_data(v)` (R114). -/
def Target.putData (t : Target) (v : Byte) (s : State) : Except Fault State :=
  match t with
  | .accumulator => .ok (s.setA v)
  | .address ea => memWrite s ea v

/-! ### The frame of an instruction -/

/-- What a semantics answers: the state, and the result value `res` or none (R84); or the fault it raises. -/
abbrev Effect := Except Fault (State × Option Byte)

/-- One instruction (R80 steps 2 to 5): PC advance past the operand, the semantics (which resolve their operand
first), then the flag update over the mnemonic's declared set. -/
def execute (m : Mnemonic) (operand : Operand) (semantics : State → Effect) (s : State) :
    Host.Outcome State Fault Refusal :=
  match semantics (s.advancePc operand.length) with
  | .error f => .fault f
  | .ok (t, res) => .next (t.setP (t.p.update m.declaredFlags res))

/-- A semantics that reads its operand and cannot fail afterwards. -/
def reading (src : Source) (effect : Byte → State → State × Option Byte) (s : State) : Effect := do
  let v ← src.getData s
  return effect v s

/-- A read-modify-write semantics (R160): one `get_data`, one `put_data` of the new value, which is the result. `alu`
answers the new value and the flags written directly. -/
def modifying (pl : Place) (alu : Byte → Flags → Byte × Flags) (s : State) : Effect := do
  let t ← pl.resolve s
  let m ← t.getData s
  let (r, p) := alu m s.p
  let s1 ← t.putData r (s.setP p)
  return (s1, some r)

/-- A semantics that makes no memory access. -/
def pureEffect (effect : State → State × Option Byte) (s : State) : Effect := .ok (effect s)

end Sys2Proof.Machine
end

