-- ==== Sys2Proof/Machine/Alu.lean ====
section
/-! DEFINITION. Logical, arithmetic, compare and bit-test instructions (spec/43). -/

namespace Sys2Proof.Machine

/-- A bitwise operation with A (R142 to R144): `A <- op A m; res <- A`. -/
def logic (m : Mnemonic) (op : Byte → Byte → Byte) (src : Source) (s : State) : Host.Outcome State Fault Refusal :=
  execute m src.operand (reading src fun v s => (s.setA (op s.a v), some (op s.a v))) s

/-- AND (R142). -/
def logicAnd (src : Source) (s : State) : Host.Outcome State Fault Refusal := logic .AND (fun a m => a &&& m) src s
/-- ORA (R143). -/
def logicOra (src : Source) (s : State) : Host.Outcome State Fault Refusal := logic .ORA (fun a m => a ||| m) src s
/-- EOR (R144). -/
def logicEor (src : Source) (s : State) : Host.Outcome State Fault Refusal := logic .EOR (fun a m => a ^^^ m) src s

/-- The sum of A, a byte and the carry into A, C and V; the sum is the result (R145, R146). D is not read (R151). -/
def addToA (m : Byte) (s : State) : State × Option Byte :=
  let r := aluAdd s.a m s.p.c
  ((s.setA r.sum8).setP { s.p with c := r.c, v := r.v }, some r.sum8)

/-- ADC (R145). -/
def adc (src : Source) (s : State) : Host.Outcome State Fault Refusal :=
  execute .ADC src.operand (reading src fun m s => addToA m s) s
/-- SBC (R146): ADC of the operand's one's complement. -/
def sbc (src : Source) (s : State) : Host.Outcome State Fault Refusal :=
  execute .SBC src.operand (reading src fun m s => addToA (m ^^^ 0xFF#8) s) s

/-- A compare (R147 to R149): C from the comparator, the difference is the result, no register is written. -/
def compareWith (m : Mnemonic) (get : State → Byte) (src : Source) (s : State) : Host.Outcome State Fault Refusal :=
  execute m src.operand (reading src fun v s =>
    (s.setP { s.p with c := (aluCmp (get s) v).c }, some (aluCmp (get s) v).value)) s

/-- CMP (R147). -/
def compareA (src : Source) (s : State) : Host.Outcome State Fault Refusal := compareWith .CMP State.a src s
/-- CPX (R148). -/
def compareX (src : Source) (s : State) : Host.Outcome State Fault Refusal := compareWith .CPX State.x src s
/-- CPY (R149). -/
def compareY (src : Source) (s : State) : Host.Outcome State Fault Refusal := compareWith .CPY State.y src s

/-- BIT (R150): Z from `A & m`, N and V from bits 7 and 6 of m; no result value. -/
def bit (src : Source) (s : State) : Host.Outcome State Fault Refusal :=
  execute .BIT src.operand (reading src fun m s =>
    (s.setP { s.p with z := (s.a &&& m) == 0#8, n := m.getLsbD 7, v := m.getLsbD 6 }, none)) s

/-! ### One meaning per opcode -/

/-- `AND #$nn` (0x29, R142). -/
def execAndImmediate (value : Byte) (s : State) : Host.Outcome State Fault Refusal := logicAnd (.immediate value) s
/-- `AND $nn` (0x25, R142). -/
def execAndZeroPage (base : Byte) (s : State) : Host.Outcome State Fault Refusal := logicAnd (.ea (.zeroPage base)) s
/-- `AND $nn,X` (0x35, R142). -/
def execAndZeroPageX (base : Byte) (s : State) : Host.Outcome State Fault Refusal := logicAnd (.ea (.zeroPageX base)) s
/-- `AND $nnnn` (0x2D, R142). -/
def execAndAbsolute (base : Addr) (s : State) : Host.Outcome State Fault Refusal := logicAnd (.ea (.absolute base)) s
/-- `AND $nnnn,X` (0x3D, R142). -/
def execAndAbsoluteX (base : Addr) (s : State) : Host.Outcome State Fault Refusal := logicAnd (.ea (.absoluteX base)) s
/-- `AND $nnnn,Y` (0x39, R142). -/
def execAndAbsoluteY (base : Addr) (s : State) : Host.Outcome State Fault Refusal := logicAnd (.ea (.absoluteY base)) s
/-- `AND ($nn,X)` (0x21, R142). -/
def execAndIndexedIndirect (base : Byte) (s : State) : Host.Outcome State Fault Refusal := logicAnd (.ea (.indexedIndirect base)) s
/-- `AND ($nn),Y` (0x31, R142). -/
def execAndIndirectIndexed (base : Byte) (s : State) : Host.Outcome State Fault Refusal := logicAnd (.ea (.indirectIndexed base)) s
/-- `ORA #$nn` (0x09, R143). -/
def execOraImmediate (value : Byte) (s : State) : Host.Outcome State Fault Refusal := logicOra (.immediate value) s
/-- `ORA $nn` (0x05, R143). -/
def execOraZeroPage (base : Byte) (s : State) : Host.Outcome State Fault Refusal := logicOra (.ea (.zeroPage base)) s
/-- `ORA $nn,X` (0x15, R143). -/
def execOraZeroPageX (base : Byte) (s : State) : Host.Outcome State Fault Refusal := logicOra (.ea (.zeroPageX base)) s
/-- `ORA $nnnn` (0x0D, R143). -/
def execOraAbsolute (base : Addr) (s : State) : Host.Outcome State Fault Refusal := logicOra (.ea (.absolute base)) s
/-- `ORA $nnnn,X` (0x1D, R143). -/
def execOraAbsoluteX (base : Addr) (s : State) : Host.Outcome State Fault Refusal := logicOra (.ea (.absoluteX base)) s
/-- `ORA $nnnn,Y` (0x19, R143). -/
def execOraAbsoluteY (base : Addr) (s : State) : Host.Outcome State Fault Refusal := logicOra (.ea (.absoluteY base)) s
/-- `ORA ($nn,X)` (0x01, R143). -/
def execOraIndexedIndirect (base : Byte) (s : State) : Host.Outcome State Fault Refusal := logicOra (.ea (.indexedIndirect base)) s
/-- `ORA ($nn),Y` (0x11, R143). -/
def execOraIndirectIndexed (base : Byte) (s : State) : Host.Outcome State Fault Refusal := logicOra (.ea (.indirectIndexed base)) s
/-- `EOR #$nn` (0x49, R144). -/
def execEorImmediate (value : Byte) (s : State) : Host.Outcome State Fault Refusal := logicEor (.immediate value) s
/-- `EOR $nn` (0x45, R144). -/
def execEorZeroPage (base : Byte) (s : State) : Host.Outcome State Fault Refusal := logicEor (.ea (.zeroPage base)) s
/-- `EOR $nn,X` (0x55, R144). -/
def execEorZeroPageX (base : Byte) (s : State) : Host.Outcome State Fault Refusal := logicEor (.ea (.zeroPageX base)) s
/-- `EOR $nnnn` (0x4D, R144). -/
def execEorAbsolute (base : Addr) (s : State) : Host.Outcome State Fault Refusal := logicEor (.ea (.absolute base)) s
/-- `EOR $nnnn,X` (0x5D, R144). -/
def execEorAbsoluteX (base : Addr) (s : State) : Host.Outcome State Fault Refusal := logicEor (.ea (.absoluteX base)) s
/-- `EOR $nnnn,Y` (0x59, R144). -/
def execEorAbsoluteY (base : Addr) (s : State) : Host.Outcome State Fault Refusal := logicEor (.ea (.absoluteY base)) s
/-- `EOR ($nn,X)` (0x41, R144). -/
def execEorIndexedIndirect (base : Byte) (s : State) : Host.Outcome State Fault Refusal := logicEor (.ea (.indexedIndirect base)) s
/-- `EOR ($nn),Y` (0x51, R144). -/
def execEorIndirectIndexed (base : Byte) (s : State) : Host.Outcome State Fault Refusal := logicEor (.ea (.indirectIndexed base)) s
/-- `ADC #$nn` (0x69, R145). -/
def execAdcImmediate (value : Byte) (s : State) : Host.Outcome State Fault Refusal := adc (.immediate value) s
/-- `ADC $nn` (0x65, R145). -/
def execAdcZeroPage (base : Byte) (s : State) : Host.Outcome State Fault Refusal := adc (.ea (.zeroPage base)) s
/-- `ADC $nn,X` (0x75, R145). -/
def execAdcZeroPageX (base : Byte) (s : State) : Host.Outcome State Fault Refusal := adc (.ea (.zeroPageX base)) s
/-- `ADC $nnnn` (0x6D, R145). -/
def execAdcAbsolute (base : Addr) (s : State) : Host.Outcome State Fault Refusal := adc (.ea (.absolute base)) s
/-- `ADC $nnnn,X` (0x7D, R145). -/
def execAdcAbsoluteX (base : Addr) (s : State) : Host.Outcome State Fault Refusal := adc (.ea (.absoluteX base)) s
/-- `ADC $nnnn,Y` (0x79, R145). -/
def execAdcAbsoluteY (base : Addr) (s : State) : Host.Outcome State Fault Refusal := adc (.ea (.absoluteY base)) s
/-- `ADC ($nn,X)` (0x61, R145). -/
def execAdcIndexedIndirect (base : Byte) (s : State) : Host.Outcome State Fault Refusal := adc (.ea (.indexedIndirect base)) s
/-- `ADC ($nn),Y` (0x71, R145). -/
def execAdcIndirectIndexed (base : Byte) (s : State) : Host.Outcome State Fault Refusal := adc (.ea (.indirectIndexed base)) s
/-- `SBC #$nn` (0xE9, R146). -/
def execSbcImmediate (value : Byte) (s : State) : Host.Outcome State Fault Refusal := sbc (.immediate value) s
/-- `SBC $nn` (0xE5, R146). -/
def execSbcZeroPage (base : Byte) (s : State) : Host.Outcome State Fault Refusal := sbc (.ea (.zeroPage base)) s
/-- `SBC $nn,X` (0xF5, R146). -/
def execSbcZeroPageX (base : Byte) (s : State) : Host.Outcome State Fault Refusal := sbc (.ea (.zeroPageX base)) s
/-- `SBC $nnnn` (0xED, R146). -/
def execSbcAbsolute (base : Addr) (s : State) : Host.Outcome State Fault Refusal := sbc (.ea (.absolute base)) s
/-- `SBC $nnnn,X` (0xFD, R146). -/
def execSbcAbsoluteX (base : Addr) (s : State) : Host.Outcome State Fault Refusal := sbc (.ea (.absoluteX base)) s
/-- `SBC $nnnn,Y` (0xF9, R146). -/
def execSbcAbsoluteY (base : Addr) (s : State) : Host.Outcome State Fault Refusal := sbc (.ea (.absoluteY base)) s
/-- `SBC ($nn,X)` (0xE1, R146). -/
def execSbcIndexedIndirect (base : Byte) (s : State) : Host.Outcome State Fault Refusal := sbc (.ea (.indexedIndirect base)) s
/-- `SBC ($nn),Y` (0xF1, R146). -/
def execSbcIndirectIndexed (base : Byte) (s : State) : Host.Outcome State Fault Refusal := sbc (.ea (.indirectIndexed base)) s
/-- `CMP #$nn` (0xC9, R147). -/
def execCmpImmediate (value : Byte) (s : State) : Host.Outcome State Fault Refusal := compareA (.immediate value) s
/-- `CMP $nn` (0xC5, R147). -/
def execCmpZeroPage (base : Byte) (s : State) : Host.Outcome State Fault Refusal := compareA (.ea (.zeroPage base)) s
/-- `CMP $nn,X` (0xD5, R147). -/
def execCmpZeroPageX (base : Byte) (s : State) : Host.Outcome State Fault Refusal := compareA (.ea (.zeroPageX base)) s
/-- `CMP $nnnn` (0xCD, R147). -/
def execCmpAbsolute (base : Addr) (s : State) : Host.Outcome State Fault Refusal := compareA (.ea (.absolute base)) s
/-- `CMP $nnnn,X` (0xDD, R147). -/
def execCmpAbsoluteX (base : Addr) (s : State) : Host.Outcome State Fault Refusal := compareA (.ea (.absoluteX base)) s
/-- `CMP $nnnn,Y` (0xD9, R147). -/
def execCmpAbsoluteY (base : Addr) (s : State) : Host.Outcome State Fault Refusal := compareA (.ea (.absoluteY base)) s
/-- `CMP ($nn,X)` (0xC1, R147). -/
def execCmpIndexedIndirect (base : Byte) (s : State) : Host.Outcome State Fault Refusal := compareA (.ea (.indexedIndirect base)) s
/-- `CMP ($nn),Y` (0xD1, R147). -/
def execCmpIndirectIndexed (base : Byte) (s : State) : Host.Outcome State Fault Refusal := compareA (.ea (.indirectIndexed base)) s
/-- `CPX #$nn` (0xE0, R148). -/
def execCpxImmediate (value : Byte) (s : State) : Host.Outcome State Fault Refusal := compareX (.immediate value) s
/-- `CPX $nn` (0xE4, R148). -/
def execCpxZeroPage (base : Byte) (s : State) : Host.Outcome State Fault Refusal := compareX (.ea (.zeroPage base)) s
/-- `CPX $nnnn` (0xEC, R148). -/
def execCpxAbsolute (base : Addr) (s : State) : Host.Outcome State Fault Refusal := compareX (.ea (.absolute base)) s
/-- `CPY #$nn` (0xC0, R149). -/
def execCpyImmediate (value : Byte) (s : State) : Host.Outcome State Fault Refusal := compareY (.immediate value) s
/-- `CPY $nn` (0xC4, R149). -/
def execCpyZeroPage (base : Byte) (s : State) : Host.Outcome State Fault Refusal := compareY (.ea (.zeroPage base)) s
/-- `CPY $nnnn` (0xCC, R149). -/
def execCpyAbsolute (base : Addr) (s : State) : Host.Outcome State Fault Refusal := compareY (.ea (.absolute base)) s
/-- `BIT $nn` (0x24, R150). -/
def execBitZeroPage (base : Byte) (s : State) : Host.Outcome State Fault Refusal := bit (.ea (.zeroPage base)) s
/-- `BIT $nnnn` (0x2C, R150). -/
def execBitAbsolute (base : Addr) (s : State) : Host.Outcome State Fault Refusal := bit (.ea (.absolute base)) s

end Sys2Proof.Machine
end

