-- ==== Sys2Proof/Machine/Control.lean ====
section
/-! DEFINITION. Jumps, calls, returns, BRK and branches (spec/46). -/

namespace Sys2Proof.Machine

/-- `RETURN_BIAS` as an address (R191, R192). -/
def returnBias (s : State) : Addr := BitVec.ofNat 16 s.cfg.returnBias.val

/-- JMP (R190): `PC <- EA`. -/
def jmp (target : EaOperand) (s : State) : Host.Outcome State Fault Refusal :=
  execute .JMP (.ea target) (fun s => do
    let ea ← effectiveAddr target s
    return (s.setPc ea, none)) s

/-- JSR (R191): push PCpost minus the bias, then `PC <- EA`. -/
def callSubroutine (target : EaOperand) (s : State) : Host.Outcome State Fault Refusal :=
  execute .JSR (.ea target) (fun s => do
    let ea ← effectiveAddr target s
    let t ← push16 (s.pc - returnBias s) s
    return (t.setPc ea, none)) s

/-- RTS (R192): pull PC and add the bias. -/
def returnFromSubroutine (s : State) : Host.Outcome State Fault Refusal :=
  execute .RTS .implicit (fun s => do
    let (w, t) ← pull16 s
    return (t.setPc (w + returnBias s), none)) s

/-- RTI (R193). -/
def rti (s : State) : Host.Outcome State Fault Refusal :=
  execute .RTI .implicit (fun s => do
    let t ← returnFromBreak s
    return (t, none)) s

/-- BRK (R194): the trap, or with `BRK_MODE = refuse` the refusal before any effect. -/
def brk (s : State) : Host.Outcome State Fault Refusal :=
  match s.cfg.brkMode with
  | .refuse => .refused (.brkRefused 0x00#8 s.pc)
  | .vector =>
    execute .BRK .implicit (fun s => do
      let t ← enterBreak s
      return (t, none)) s

/-- A conditional branch (R195): to EA if the condition holds, else PC stays PCpost. -/
def branch (m : Mnemonic) (cond : Flags → Bool) (offset : Byte) (s : State) : Host.Outcome State Fault Refusal :=
  execute m (.ea (.relative offset)) (fun s => do
    let ea ← effectiveAddr (.relative offset) s
    return (if cond s.p then s.setPc ea else s, none)) s

/-! ### One meaning per opcode -/

/-- `JMP $nnnn` (0x4C, R190). -/
def execJmpAbsolute (base : Addr) (s : State) : Host.Outcome State Fault Refusal := jmp (.absolute base) s
/-- `JMP ($nnnn)` (0x6C, R190). -/
def execJmpIndirect (pointer : Addr) (s : State) : Host.Outcome State Fault Refusal := jmp (.indirect pointer) s
/-- `JSR $nnnn` (0x20, R191). -/
def execJsr (base : Addr) (s : State) : Host.Outcome State Fault Refusal :=
  callSubroutine (.absolute base) s
/-- `RTS` (0x60, R192). -/
def execRts (s : State) : Host.Outcome State Fault Refusal :=
  returnFromSubroutine s
/-- `RTI` (0x40, R193). -/
def execRti (s : State) : Host.Outcome State Fault Refusal :=
  rti s
/-- `BRK` (0x00, R194). -/
def execBrk (s : State) : Host.Outcome State Fault Refusal :=
  brk s
/-- `BCC $nnnn (target)` (0x90, R196). -/
def execBcc (offset : Byte) (s : State) : Host.Outcome State Fault Refusal :=
  branch .BCC (fun p => !p.c) offset s
/-- `BCS $nnnn (target)` (0xB0, R197). -/
def execBcs (offset : Byte) (s : State) : Host.Outcome State Fault Refusal :=
  branch .BCS (fun p => p.c) offset s
/-- `BEQ $nnnn (target)` (0xF0, R198). -/
def execBeq (offset : Byte) (s : State) : Host.Outcome State Fault Refusal :=
  branch .BEQ (fun p => p.z) offset s
/-- `BNE $nnnn (target)` (0xD0, R199). -/
def execBne (offset : Byte) (s : State) : Host.Outcome State Fault Refusal :=
  branch .BNE (fun p => !p.z) offset s
/-- `BMI $nnnn (target)` (0x30, R200). -/
def execBmi (offset : Byte) (s : State) : Host.Outcome State Fault Refusal :=
  branch .BMI (fun p => p.n) offset s
/-- `BPL $nnnn (target)` (0x10, R201). -/
def execBpl (offset : Byte) (s : State) : Host.Outcome State Fault Refusal :=
  branch .BPL (fun p => !p.n) offset s
/-- `BVC $nnnn (target)` (0x50, R202). -/
def execBvc (offset : Byte) (s : State) : Host.Outcome State Fault Refusal :=
  branch .BVC (fun p => !p.v) offset s
/-- `BVS $nnnn (target)` (0x70, R203). -/
def execBvs (offset : Byte) (s : State) : Host.Outcome State Fault Refusal :=
  branch .BVS (fun p => p.v) offset s

end Sys2Proof.Machine
end

