-- ==== Sys2Proof/Machine/FlagNop.lean ====
section
/-! DEFINITION. Flag set and clear instructions, and NOP (spec/47). -/

namespace Sys2Proof.Machine

/-- `CLC` (0x18, R210). -/
def execClc (s : State) : Host.Outcome State Fault Refusal :=
  execute .CLC .implicit (pureEffect fun s => (s.setP { s.p with c := false }, none)) s
/-- `SEC` (0x38, R211). -/
def execSec (s : State) : Host.Outcome State Fault Refusal :=
  execute .SEC .implicit (pureEffect fun s => (s.setP { s.p with c := true }, none)) s
/-- `CLI` (0x58, R212). -/
def execCli (s : State) : Host.Outcome State Fault Refusal :=
  execute .CLI .implicit (pureEffect fun s => (s.setP { s.p with i := false }, none)) s
/-- `SEI` (0x78, R213). -/
def execSei (s : State) : Host.Outcome State Fault Refusal :=
  execute .SEI .implicit (pureEffect fun s => (s.setP { s.p with i := true }, none)) s
/-- `CLD` (0xD8, R214). -/
def execCld (s : State) : Host.Outcome State Fault Refusal :=
  execute .CLD .implicit (pureEffect fun s => (s.setP { s.p with d := false }, none)) s
/-- `SED` (0xF8, R215). -/
def execSed (s : State) : Host.Outcome State Fault Refusal :=
  execute .SED .implicit (pureEffect fun s => (s.setP { s.p with d := true }, none)) s
/-- `CLV` (0xB8, R216). -/
def execClv (s : State) : Host.Outcome State Fault Refusal :=
  execute .CLV .implicit (pureEffect fun s => (s.setP { s.p with v := false }, none)) s
/-- `NOP` (0xEA, R217). -/
def execNop (s : State) : Host.Outcome State Fault Refusal :=
  execute .NOP .implicit (pureEffect fun s => (s, none)) s

end Sys2Proof.Machine
end

