-- ==== Sys2Proof/Machine/IncDecShift.lean ====
section
/-! DEFINITION. Increment, decrement, shift and rotate (spec/44). -/

namespace Sys2Proof.Machine

/-! ### Registers (R161 to R164) -/

/-- `INX` (0xE8, R161). -/
def execInx (s : State) : Host.Outcome State Fault Refusal :=
  execute .INX .implicit (pureEffect fun s => (s.setX (s.x + 1#8), some (s.x + 1#8))) s
/-- `DEX` (0xCA, R162). -/
def execDex (s : State) : Host.Outcome State Fault Refusal :=
  execute .DEX .implicit (pureEffect fun s => (s.setX (s.x - 1#8), some (s.x - 1#8))) s
/-- `INY` (0xC8, R163). -/
def execIny (s : State) : Host.Outcome State Fault Refusal :=
  execute .INY .implicit (pureEffect fun s => (s.setY (s.y + 1#8), some (s.y + 1#8))) s
/-- `DEY` (0x88, R164). -/
def execDey (s : State) : Host.Outcome State Fault Refusal :=
  execute .DEY .implicit (pureEffect fun s => (s.setY (s.y - 1#8), some (s.y - 1#8))) s

/-! ### Read-modify-write (R160) -/

/-- INC and DEC: the new value, no flag written directly. -/
def adjust (m : Mnemonic) (f : Byte → Byte) (pl : Place) (s : State) : Host.Outcome State Fault Refusal :=
  execute m pl.operand (modifying pl fun v p => (f v, p)) s

/-- INC (R165). -/
def inc (pl : Place) (s : State) : Host.Outcome State Fault Refusal := adjust .INC (fun m => m + 1#8) pl s
/-- DEC (R166). -/
def dec (pl : Place) (s : State) : Host.Outcome State Fault Refusal := adjust .DEC (fun m => m - 1#8) pl s

/-- The shifts and rotates: the new value, and C written directly. -/
def shift (m : Mnemonic) (f : Byte → Bool → AluCarry) (pl : Place) (s : State) : Host.Outcome State Fault Refusal :=
  execute m pl.operand (modifying pl fun v p => ((f v p.c).value, { p with c := (f v p.c).c })) s

/-- ASL (R167). -/
def asl (pl : Place) (s : State) : Host.Outcome State Fault Refusal := shift .ASL aluAsl pl s
/-- LSR (R168). -/
def lsr (pl : Place) (s : State) : Host.Outcome State Fault Refusal := shift .LSR aluLsr pl s
/-- ROL (R169). -/
def rol (pl : Place) (s : State) : Host.Outcome State Fault Refusal := shift .ROL aluRol pl s
/-- ROR (R170). -/
def ror (pl : Place) (s : State) : Host.Outcome State Fault Refusal := shift .ROR aluRor pl s

/-! ### One meaning per opcode -/

/-- `INC $nn` (0xE6, R165). -/
def execIncZeroPage (base : Byte) (s : State) : Host.Outcome State Fault Refusal := inc (.ea (.zeroPage base)) s
/-- `INC $nn,X` (0xF6, R165). -/
def execIncZeroPageX (base : Byte) (s : State) : Host.Outcome State Fault Refusal := inc (.ea (.zeroPageX base)) s
/-- `INC $nnnn` (0xEE, R165). -/
def execIncAbsolute (base : Addr) (s : State) : Host.Outcome State Fault Refusal := inc (.ea (.absolute base)) s
/-- `INC $nnnn,X` (0xFE, R165). -/
def execIncAbsoluteX (base : Addr) (s : State) : Host.Outcome State Fault Refusal := inc (.ea (.absoluteX base)) s
/-- `DEC $nn` (0xC6, R166). -/
def execDecZeroPage (base : Byte) (s : State) : Host.Outcome State Fault Refusal := dec (.ea (.zeroPage base)) s
/-- `DEC $nn,X` (0xD6, R166). -/
def execDecZeroPageX (base : Byte) (s : State) : Host.Outcome State Fault Refusal := dec (.ea (.zeroPageX base)) s
/-- `DEC $nnnn` (0xCE, R166). -/
def execDecAbsolute (base : Addr) (s : State) : Host.Outcome State Fault Refusal := dec (.ea (.absolute base)) s
/-- `DEC $nnnn,X` (0xDE, R166). -/
def execDecAbsoluteX (base : Addr) (s : State) : Host.Outcome State Fault Refusal := dec (.ea (.absoluteX base)) s
/-- `ASL A` (0x0A, R167). -/
def execAslAccumulator (s : State) : Host.Outcome State Fault Refusal := asl .accumulator s
/-- `ASL $nn` (0x06, R167). -/
def execAslZeroPage (base : Byte) (s : State) : Host.Outcome State Fault Refusal := asl (.ea (.zeroPage base)) s
/-- `ASL $nn,X` (0x16, R167). -/
def execAslZeroPageX (base : Byte) (s : State) : Host.Outcome State Fault Refusal := asl (.ea (.zeroPageX base)) s
/-- `ASL $nnnn` (0x0E, R167). -/
def execAslAbsolute (base : Addr) (s : State) : Host.Outcome State Fault Refusal := asl (.ea (.absolute base)) s
/-- `ASL $nnnn,X` (0x1E, R167). -/
def execAslAbsoluteX (base : Addr) (s : State) : Host.Outcome State Fault Refusal := asl (.ea (.absoluteX base)) s
/-- `LSR A` (0x4A, R168). -/
def execLsrAccumulator (s : State) : Host.Outcome State Fault Refusal := lsr .accumulator s
/-- `LSR $nn` (0x46, R168). -/
def execLsrZeroPage (base : Byte) (s : State) : Host.Outcome State Fault Refusal := lsr (.ea (.zeroPage base)) s
/-- `LSR $nn,X` (0x56, R168). -/
def execLsrZeroPageX (base : Byte) (s : State) : Host.Outcome State Fault Refusal := lsr (.ea (.zeroPageX base)) s
/-- `LSR $nnnn` (0x4E, R168). -/
def execLsrAbsolute (base : Addr) (s : State) : Host.Outcome State Fault Refusal := lsr (.ea (.absolute base)) s
/-- `LSR $nnnn,X` (0x5E, R168). -/
def execLsrAbsoluteX (base : Addr) (s : State) : Host.Outcome State Fault Refusal := lsr (.ea (.absoluteX base)) s
/-- `ROL A` (0x2A, R169). -/
def execRolAccumulator (s : State) : Host.Outcome State Fault Refusal := rol .accumulator s
/-- `ROL $nn` (0x26, R169). -/
def execRolZeroPage (base : Byte) (s : State) : Host.Outcome State Fault Refusal := rol (.ea (.zeroPage base)) s
/-- `ROL $nn,X` (0x36, R169). -/
def execRolZeroPageX (base : Byte) (s : State) : Host.Outcome State Fault Refusal := rol (.ea (.zeroPageX base)) s
/-- `ROL $nnnn` (0x2E, R169). -/
def execRolAbsolute (base : Addr) (s : State) : Host.Outcome State Fault Refusal := rol (.ea (.absolute base)) s
/-- `ROL $nnnn,X` (0x3E, R169). -/
def execRolAbsoluteX (base : Addr) (s : State) : Host.Outcome State Fault Refusal := rol (.ea (.absoluteX base)) s
/-- `ROR A` (0x6A, R170). -/
def execRorAccumulator (s : State) : Host.Outcome State Fault Refusal := ror .accumulator s
/-- `ROR $nn` (0x66, R170). -/
def execRorZeroPage (base : Byte) (s : State) : Host.Outcome State Fault Refusal := ror (.ea (.zeroPage base)) s
/-- `ROR $nn,X` (0x76, R170). -/
def execRorZeroPageX (base : Byte) (s : State) : Host.Outcome State Fault Refusal := ror (.ea (.zeroPageX base)) s
/-- `ROR $nnnn` (0x6E, R170). -/
def execRorAbsolute (base : Addr) (s : State) : Host.Outcome State Fault Refusal := ror (.ea (.absolute base)) s
/-- `ROR $nnnn,X` (0x7E, R170). -/
def execRorAbsoluteX (base : Addr) (s : State) : Host.Outcome State Fault Refusal := ror (.ea (.absoluteX base)) s

end Sys2Proof.Machine
end

