-- ==== Sys2Proof/Machine/LoadStore.lean ====
section
/-! DEFINITION. Loads, stores and transfers (spec/42). -/

namespace Sys2Proof.Machine

/-- A load: `v <- get_data(); R <- v; res <- v` (R120 to R122). -/
def load (m : Mnemonic) (set : State → Byte → State) (src : Source) (s : State) : Host.Outcome State Fault Refusal :=
  execute m src.operand (reading src fun v s => (set s v, some v)) s

/-- LDA (R120). -/
def lda (src : Source) (s : State) : Host.Outcome State Fault Refusal := load .LDA State.setA src s
/-- LDX (R121). -/
def ldx (src : Source) (s : State) : Host.Outcome State Fault Refusal := load .LDX State.setX src s
/-- LDY (R122). -/
def ldy (src : Source) (s : State) : Host.Outcome State Fault Refusal := load .LDY State.setY src s

/-- A store: `put_data(R)`, with no read at EA and no result (R114, R123 to R125). -/
def store (m : Mnemonic) (get : State → Byte) (dst : EaOperand) (s : State) : Host.Outcome State Fault Refusal :=
  execute m (.ea dst) (fun s => do
    let ea ← effectiveAddr dst s
    let t ← memWrite s ea (get s)
    return (t, none)) s

/-- STA (R123). -/
def sta (dst : EaOperand) (s : State) : Host.Outcome State Fault Refusal := store .STA State.a dst s
/-- STX (R124). -/
def stx (dst : EaOperand) (s : State) : Host.Outcome State Fault Refusal := store .STX State.x dst s
/-- STY (R125). -/
def sty (dst : EaOperand) (s : State) : Host.Outcome State Fault Refusal := store .STY State.y dst s

/-! ### One meaning per opcode -/

/-- `LDA #$nn` (0xA9, R120). -/
def execLdaImmediate (value : Byte) (s : State) : Host.Outcome State Fault Refusal := lda (.immediate value) s
/-- `LDA $nn` (0xA5, R120). -/
def execLdaZeroPage (base : Byte) (s : State) : Host.Outcome State Fault Refusal := lda (.ea (.zeroPage base)) s
/-- `LDA $nn,X` (0xB5, R120). -/
def execLdaZeroPageX (base : Byte) (s : State) : Host.Outcome State Fault Refusal := lda (.ea (.zeroPageX base)) s
/-- `LDA $nnnn` (0xAD, R120). -/
def execLdaAbsolute (base : Addr) (s : State) : Host.Outcome State Fault Refusal := lda (.ea (.absolute base)) s
/-- `LDA $nnnn,X` (0xBD, R120). -/
def execLdaAbsoluteX (base : Addr) (s : State) : Host.Outcome State Fault Refusal := lda (.ea (.absoluteX base)) s
/-- `LDA $nnnn,Y` (0xB9, R120). -/
def execLdaAbsoluteY (base : Addr) (s : State) : Host.Outcome State Fault Refusal := lda (.ea (.absoluteY base)) s
/-- `LDA ($nn,X)` (0xA1, R120). -/
def execLdaIndexedIndirect (base : Byte) (s : State) : Host.Outcome State Fault Refusal := lda (.ea (.indexedIndirect base)) s
/-- `LDA ($nn),Y` (0xB1, R120). -/
def execLdaIndirectIndexed (base : Byte) (s : State) : Host.Outcome State Fault Refusal := lda (.ea (.indirectIndexed base)) s
/-- `LDX #$nn` (0xA2, R121). -/
def execLdxImmediate (value : Byte) (s : State) : Host.Outcome State Fault Refusal := ldx (.immediate value) s
/-- `LDX $nn` (0xA6, R121). -/
def execLdxZeroPage (base : Byte) (s : State) : Host.Outcome State Fault Refusal := ldx (.ea (.zeroPage base)) s
/-- `LDX $nn,Y` (0xB6, R121). -/
def execLdxZeroPageY (base : Byte) (s : State) : Host.Outcome State Fault Refusal := ldx (.ea (.zeroPageY base)) s
/-- `LDX $nnnn` (0xAE, R121). -/
def execLdxAbsolute (base : Addr) (s : State) : Host.Outcome State Fault Refusal := ldx (.ea (.absolute base)) s
/-- `LDX $nnnn,Y` (0xBE, R121). -/
def execLdxAbsoluteY (base : Addr) (s : State) : Host.Outcome State Fault Refusal := ldx (.ea (.absoluteY base)) s
/-- `LDY #$nn` (0xA0, R122). -/
def execLdyImmediate (value : Byte) (s : State) : Host.Outcome State Fault Refusal := ldy (.immediate value) s
/-- `LDY $nn` (0xA4, R122). -/
def execLdyZeroPage (base : Byte) (s : State) : Host.Outcome State Fault Refusal := ldy (.ea (.zeroPage base)) s
/-- `LDY $nn,X` (0xB4, R122). -/
def execLdyZeroPageX (base : Byte) (s : State) : Host.Outcome State Fault Refusal := ldy (.ea (.zeroPageX base)) s
/-- `LDY $nnnn` (0xAC, R122). -/
def execLdyAbsolute (base : Addr) (s : State) : Host.Outcome State Fault Refusal := ldy (.ea (.absolute base)) s
/-- `LDY $nnnn,X` (0xBC, R122). -/
def execLdyAbsoluteX (base : Addr) (s : State) : Host.Outcome State Fault Refusal := ldy (.ea (.absoluteX base)) s
/-- `STA $nn` (0x85, R123). -/
def execStaZeroPage (base : Byte) (s : State) : Host.Outcome State Fault Refusal := sta (.zeroPage base) s
/-- `STA $nn,X` (0x95, R123). -/
def execStaZeroPageX (base : Byte) (s : State) : Host.Outcome State Fault Refusal := sta (.zeroPageX base) s
/-- `STA $nnnn` (0x8D, R123). -/
def execStaAbsolute (base : Addr) (s : State) : Host.Outcome State Fault Refusal := sta (.absolute base) s
/-- `STA $nnnn,X` (0x9D, R123). -/
def execStaAbsoluteX (base : Addr) (s : State) : Host.Outcome State Fault Refusal := sta (.absoluteX base) s
/-- `STA $nnnn,Y` (0x99, R123). -/
def execStaAbsoluteY (base : Addr) (s : State) : Host.Outcome State Fault Refusal := sta (.absoluteY base) s
/-- `STA ($nn,X)` (0x81, R123). -/
def execStaIndexedIndirect (base : Byte) (s : State) : Host.Outcome State Fault Refusal := sta (.indexedIndirect base) s
/-- `STA ($nn),Y` (0x91, R123). -/
def execStaIndirectIndexed (base : Byte) (s : State) : Host.Outcome State Fault Refusal := sta (.indirectIndexed base) s
/-- `STX $nn` (0x86, R124). -/
def execStxZeroPage (base : Byte) (s : State) : Host.Outcome State Fault Refusal := stx (.zeroPage base) s
/-- `STX $nn,Y` (0x96, R124). -/
def execStxZeroPageY (base : Byte) (s : State) : Host.Outcome State Fault Refusal := stx (.zeroPageY base) s
/-- `STX $nnnn` (0x8E, R124). -/
def execStxAbsolute (base : Addr) (s : State) : Host.Outcome State Fault Refusal := stx (.absolute base) s
/-- `STY $nn` (0x84, R125). -/
def execStyZeroPage (base : Byte) (s : State) : Host.Outcome State Fault Refusal := sty (.zeroPage base) s
/-- `STY $nn,X` (0x94, R125). -/
def execStyZeroPageX (base : Byte) (s : State) : Host.Outcome State Fault Refusal := sty (.zeroPageX base) s
/-- `STY $nnnn` (0x8C, R125). -/
def execStyAbsolute (base : Addr) (s : State) : Host.Outcome State Fault Refusal := sty (.absolute base) s

/-! ### Transfers (R126 to R131) -/

/-- `TAX` (0xAA, R126). -/
def execTax (s : State) : Host.Outcome State Fault Refusal :=
  execute .TAX .implicit (pureEffect fun s => (s.setX s.a, some s.a)) s
/-- `TAY` (0xA8, R127). -/
def execTay (s : State) : Host.Outcome State Fault Refusal :=
  execute .TAY .implicit (pureEffect fun s => (s.setY s.a, some s.a)) s
/-- `TXA` (0x8A, R128). -/
def execTxa (s : State) : Host.Outcome State Fault Refusal :=
  execute .TXA .implicit (pureEffect fun s => (s.setA s.x, some s.x)) s
/-- `TYA` (0x98, R129). -/
def execTya (s : State) : Host.Outcome State Fault Refusal :=
  execute .TYA .implicit (pureEffect fun s => (s.setA s.y, some s.y)) s
/-- `TSX` (0xBA, R130). -/
def execTsx (s : State) : Host.Outcome State Fault Refusal :=
  execute .TSX .implicit (pureEffect fun s => (s.setX s.sp, some s.sp)) s
/-- `TXS` (0x9A, R131). -/
def execTxs (s : State) : Host.Outcome State Fault Refusal :=
  execute .TXS .implicit (pureEffect fun s => (s.setSp s.x, none)) s

end Sys2Proof.Machine
end

