-- ==== Sys2Proof/Machine/Stack.lean ====
section
/-! DEFINITION. The stack instructions (spec/45). -/

namespace Sys2Proof.Machine

/-- A push instruction: push a byte, no result (R184, R185). -/
def pushing (m : Mnemonic) (get : State → Byte) (s : State) : Host.Outcome State Fault Refusal :=
  execute m .implicit (fun s => do
    let t ← push (get s) s
    return (t, none)) s

/-- A pull instruction (R186, R187): pull a byte and give it to the effect. -/
def pulling (m : Mnemonic) (effect : Byte → State → State × Option Byte) (s : State) : Host.Outcome State Fault Refusal :=
  execute m .implicit (fun s => do
    let (b, t) ← pull s
    return effect b t) s

/-- `PHA` (0x48, R184). -/
def execPha (s : State) : Host.Outcome State Fault Refusal :=
  pushing .PHA State.a s
/-- `PHP` (0x08, R185). -/
def execPhp (s : State) : Host.Outcome State Fault Refusal :=
  pushing .PHP (fun s => s.p.pushed) s
/-- `PLA` (0x68, R186). -/
def execPla (s : State) : Host.Outcome State Fault Refusal :=
  pulling .PLA (fun b s => (s.setA b, some b)) s
/-- `PLP` (0x28, R187). -/
def execPlp (s : State) : Host.Outcome State Fault Refusal :=
  pulling .PLP (fun b s => (s.setP (s.p.pulled b), none)) s

end Sys2Proof.Machine
end

