-- ==== Sys2Proof/Machine/Dispatch.lean ====
section
/-! DEFINITION. One arm per constructor of Instr, each a direct call of its meaning. -/

namespace Sys2Proof.Machine

def exec (i : Instr) (s : State) : Host.Outcome State Fault Refusal :=
  match i with
  -- Loads and stores (spec/42)
  | .ldaImmediate value => Sys2Proof.Machine.execLdaImmediate value s
  | .ldaZeroPage base => Sys2Proof.Machine.execLdaZeroPage base s
  | .ldaZeroPageX base => Sys2Proof.Machine.execLdaZeroPageX base s
  | .ldaAbsolute base => Sys2Proof.Machine.execLdaAbsolute base s
  | .ldaAbsoluteX base => Sys2Proof.Machine.execLdaAbsoluteX base s
  | .ldaAbsoluteY base => Sys2Proof.Machine.execLdaAbsoluteY base s
  | .ldaIndexedIndirect base => Sys2Proof.Machine.execLdaIndexedIndirect base s
  | .ldaIndirectIndexed base => Sys2Proof.Machine.execLdaIndirectIndexed base s
  | .ldxImmediate value => Sys2Proof.Machine.execLdxImmediate value s
  | .ldxZeroPage base => Sys2Proof.Machine.execLdxZeroPage base s
  | .ldxZeroPageY base => Sys2Proof.Machine.execLdxZeroPageY base s
  | .ldxAbsolute base => Sys2Proof.Machine.execLdxAbsolute base s
  | .ldxAbsoluteY base => Sys2Proof.Machine.execLdxAbsoluteY base s
  | .ldyImmediate value => Sys2Proof.Machine.execLdyImmediate value s
  | .ldyZeroPage base => Sys2Proof.Machine.execLdyZeroPage base s
  | .ldyZeroPageX base => Sys2Proof.Machine.execLdyZeroPageX base s
  | .ldyAbsolute base => Sys2Proof.Machine.execLdyAbsolute base s
  | .ldyAbsoluteX base => Sys2Proof.Machine.execLdyAbsoluteX base s
  | .staZeroPage base => Sys2Proof.Machine.execStaZeroPage base s
  | .staZeroPageX base => Sys2Proof.Machine.execStaZeroPageX base s
  | .staAbsolute base => Sys2Proof.Machine.execStaAbsolute base s
  | .staAbsoluteX base => Sys2Proof.Machine.execStaAbsoluteX base s
  | .staAbsoluteY base => Sys2Proof.Machine.execStaAbsoluteY base s
  | .staIndexedIndirect base => Sys2Proof.Machine.execStaIndexedIndirect base s
  | .staIndirectIndexed base => Sys2Proof.Machine.execStaIndirectIndexed base s
  | .stxZeroPage base => Sys2Proof.Machine.execStxZeroPage base s
  | .stxZeroPageY base => Sys2Proof.Machine.execStxZeroPageY base s
  | .stxAbsolute base => Sys2Proof.Machine.execStxAbsolute base s
  | .styZeroPage base => Sys2Proof.Machine.execStyZeroPage base s
  | .styZeroPageX base => Sys2Proof.Machine.execStyZeroPageX base s
  | .styAbsolute base => Sys2Proof.Machine.execStyAbsolute base s
  -- Transfers (spec/42)
  | .tax => Sys2Proof.Machine.execTax s
  | .tay => Sys2Proof.Machine.execTay s
  | .txa => Sys2Proof.Machine.execTxa s
  | .tya => Sys2Proof.Machine.execTya s
  | .tsx => Sys2Proof.Machine.execTsx s
  | .txs => Sys2Proof.Machine.execTxs s
  -- Logic, arithmetic, compare, bit test (spec/43)
  | .andImmediate value => Sys2Proof.Machine.execAndImmediate value s
  | .andZeroPage base => Sys2Proof.Machine.execAndZeroPage base s
  | .andZeroPageX base => Sys2Proof.Machine.execAndZeroPageX base s
  | .andAbsolute base => Sys2Proof.Machine.execAndAbsolute base s
  | .andAbsoluteX base => Sys2Proof.Machine.execAndAbsoluteX base s
  | .andAbsoluteY base => Sys2Proof.Machine.execAndAbsoluteY base s
  | .andIndexedIndirect base => Sys2Proof.Machine.execAndIndexedIndirect base s
  | .andIndirectIndexed base => Sys2Proof.Machine.execAndIndirectIndexed base s
  | .oraImmediate value => Sys2Proof.Machine.execOraImmediate value s
  | .oraZeroPage base => Sys2Proof.Machine.execOraZeroPage base s
  | .oraZeroPageX base => Sys2Proof.Machine.execOraZeroPageX base s
  | .oraAbsolute base => Sys2Proof.Machine.execOraAbsolute base s
  | .oraAbsoluteX base => Sys2Proof.Machine.execOraAbsoluteX base s
  | .oraAbsoluteY base => Sys2Proof.Machine.execOraAbsoluteY base s
  | .oraIndexedIndirect base => Sys2Proof.Machine.execOraIndexedIndirect base s
  | .oraIndirectIndexed base => Sys2Proof.Machine.execOraIndirectIndexed base s
  | .eorImmediate value => Sys2Proof.Machine.execEorImmediate value s
  | .eorZeroPage base => Sys2Proof.Machine.execEorZeroPage base s
  | .eorZeroPageX base => Sys2Proof.Machine.execEorZeroPageX base s
  | .eorAbsolute base => Sys2Proof.Machine.execEorAbsolute base s
  | .eorAbsoluteX base => Sys2Proof.Machine.execEorAbsoluteX base s
  | .eorAbsoluteY base => Sys2Proof.Machine.execEorAbsoluteY base s
  | .eorIndexedIndirect base => Sys2Proof.Machine.execEorIndexedIndirect base s
  | .eorIndirectIndexed base => Sys2Proof.Machine.execEorIndirectIndexed base s
  | .adcImmediate value => Sys2Proof.Machine.execAdcImmediate value s
  | .adcZeroPage base => Sys2Proof.Machine.execAdcZeroPage base s
  | .adcZeroPageX base => Sys2Proof.Machine.execAdcZeroPageX base s
  | .adcAbsolute base => Sys2Proof.Machine.execAdcAbsolute base s
  | .adcAbsoluteX base => Sys2Proof.Machine.execAdcAbsoluteX base s
  | .adcAbsoluteY base => Sys2Proof.Machine.execAdcAbsoluteY base s
  | .adcIndexedIndirect base => Sys2Proof.Machine.execAdcIndexedIndirect base s
  | .adcIndirectIndexed base => Sys2Proof.Machine.execAdcIndirectIndexed base s
  | .sbcImmediate value => Sys2Proof.Machine.execSbcImmediate value s
  | .sbcZeroPage base => Sys2Proof.Machine.execSbcZeroPage base s
  | .sbcZeroPageX base => Sys2Proof.Machine.execSbcZeroPageX base s
  | .sbcAbsolute base => Sys2Proof.Machine.execSbcAbsolute base s
  | .sbcAbsoluteX base => Sys2Proof.Machine.execSbcAbsoluteX base s
  | .sbcAbsoluteY base => Sys2Proof.Machine.execSbcAbsoluteY base s
  | .sbcIndexedIndirect base => Sys2Proof.Machine.execSbcIndexedIndirect base s
  | .sbcIndirectIndexed base => Sys2Proof.Machine.execSbcIndirectIndexed base s
  | .cmpImmediate value => Sys2Proof.Machine.execCmpImmediate value s
  | .cmpZeroPage base => Sys2Proof.Machine.execCmpZeroPage base s
  | .cmpZeroPageX base => Sys2Proof.Machine.execCmpZeroPageX base s
  | .cmpAbsolute base => Sys2Proof.Machine.execCmpAbsolute base s
  | .cmpAbsoluteX base => Sys2Proof.Machine.execCmpAbsoluteX base s
  | .cmpAbsoluteY base => Sys2Proof.Machine.execCmpAbsoluteY base s
  | .cmpIndexedIndirect base => Sys2Proof.Machine.execCmpIndexedIndirect base s
  | .cmpIndirectIndexed base => Sys2Proof.Machine.execCmpIndirectIndexed base s
  | .cpxImmediate value => Sys2Proof.Machine.execCpxImmediate value s
  | .cpxZeroPage base => Sys2Proof.Machine.execCpxZeroPage base s
  | .cpxAbsolute base => Sys2Proof.Machine.execCpxAbsolute base s
  | .cpyImmediate value => Sys2Proof.Machine.execCpyImmediate value s
  | .cpyZeroPage base => Sys2Proof.Machine.execCpyZeroPage base s
  | .cpyAbsolute base => Sys2Proof.Machine.execCpyAbsolute base s
  | .bitZeroPage base => Sys2Proof.Machine.execBitZeroPage base s
  | .bitAbsolute base => Sys2Proof.Machine.execBitAbsolute base s
  -- Increment, decrement, shift, rotate (spec/44)
  | .inx => Sys2Proof.Machine.execInx s
  | .dex => Sys2Proof.Machine.execDex s
  | .iny => Sys2Proof.Machine.execIny s
  | .dey => Sys2Proof.Machine.execDey s
  | .incZeroPage base => Sys2Proof.Machine.execIncZeroPage base s
  | .incZeroPageX base => Sys2Proof.Machine.execIncZeroPageX base s
  | .incAbsolute base => Sys2Proof.Machine.execIncAbsolute base s
  | .incAbsoluteX base => Sys2Proof.Machine.execIncAbsoluteX base s
  | .decZeroPage base => Sys2Proof.Machine.execDecZeroPage base s
  | .decZeroPageX base => Sys2Proof.Machine.execDecZeroPageX base s
  | .decAbsolute base => Sys2Proof.Machine.execDecAbsolute base s
  | .decAbsoluteX base => Sys2Proof.Machine.execDecAbsoluteX base s
  | .aslAccumulator => Sys2Proof.Machine.execAslAccumulator s
  | .aslZeroPage base => Sys2Proof.Machine.execAslZeroPage base s
  | .aslZeroPageX base => Sys2Proof.Machine.execAslZeroPageX base s
  | .aslAbsolute base => Sys2Proof.Machine.execAslAbsolute base s
  | .aslAbsoluteX base => Sys2Proof.Machine.execAslAbsoluteX base s
  | .lsrAccumulator => Sys2Proof.Machine.execLsrAccumulator s
  | .lsrZeroPage base => Sys2Proof.Machine.execLsrZeroPage base s
  | .lsrZeroPageX base => Sys2Proof.Machine.execLsrZeroPageX base s
  | .lsrAbsolute base => Sys2Proof.Machine.execLsrAbsolute base s
  | .lsrAbsoluteX base => Sys2Proof.Machine.execLsrAbsoluteX base s
  | .rolAccumulator => Sys2Proof.Machine.execRolAccumulator s
  | .rolZeroPage base => Sys2Proof.Machine.execRolZeroPage base s
  | .rolZeroPageX base => Sys2Proof.Machine.execRolZeroPageX base s
  | .rolAbsolute base => Sys2Proof.Machine.execRolAbsolute base s
  | .rolAbsoluteX base => Sys2Proof.Machine.execRolAbsoluteX base s
  | .rorAccumulator => Sys2Proof.Machine.execRorAccumulator s
  | .rorZeroPage base => Sys2Proof.Machine.execRorZeroPage base s
  | .rorZeroPageX base => Sys2Proof.Machine.execRorZeroPageX base s
  | .rorAbsolute base => Sys2Proof.Machine.execRorAbsolute base s
  | .rorAbsoluteX base => Sys2Proof.Machine.execRorAbsoluteX base s
  -- Stack (spec/45)
  | .pha => Sys2Proof.Machine.execPha s
  | .php => Sys2Proof.Machine.execPhp s
  | .pla => Sys2Proof.Machine.execPla s
  | .plp => Sys2Proof.Machine.execPlp s
  -- Jumps, calls, returns, BRK, branches (spec/46)
  | .jmpAbsolute base => Sys2Proof.Machine.execJmpAbsolute base s
  | .jmpIndirect pointer => Sys2Proof.Machine.execJmpIndirect pointer s
  | .jsr base => Sys2Proof.Machine.execJsr base s
  | .rts => Sys2Proof.Machine.execRts s
  | .rti => Sys2Proof.Machine.execRti s
  | .brk => Sys2Proof.Machine.execBrk s
  | .bcc offset => Sys2Proof.Machine.execBcc offset s
  | .bcs offset => Sys2Proof.Machine.execBcs offset s
  | .beq offset => Sys2Proof.Machine.execBeq offset s
  | .bne offset => Sys2Proof.Machine.execBne offset s
  | .bmi offset => Sys2Proof.Machine.execBmi offset s
  | .bpl offset => Sys2Proof.Machine.execBpl offset s
  | .bvc offset => Sys2Proof.Machine.execBvc offset s
  | .bvs offset => Sys2Proof.Machine.execBvs offset s
  -- Flags and NOP (spec/47)
  | .clc => Sys2Proof.Machine.execClc s
  | .sec => Sys2Proof.Machine.execSec s
  | .cli => Sys2Proof.Machine.execCli s
  | .sei => Sys2Proof.Machine.execSei s
  | .cld => Sys2Proof.Machine.execCld s
  | .sed => Sys2Proof.Machine.execSed s
  | .clv => Sys2Proof.Machine.execClv s
  | .nop => Sys2Proof.Machine.execNop s

end Sys2Proof.Machine
end

