-- ==== Sys2Proof/Machine/Fetch.lean ====
section
/-! DEFINITION. Identify (R81): fetching the opcode and operand bytes, and placing them (for the host). -/

namespace Sys2Proof.Machine

/-- `n` operand bytes from `a` on, in order, with addresses modulo 65536 (R81). -/
def fetchOperands (s : State) : Nat → Addr → Except Fault (List Byte)
  | 0, _ => .ok []
  | n + 1, a => do
    let b ← memRead s a
    let bytes ← fetchOperands s n (a + 1#16)
    return b :: bytes

/-- `Identify(pc0)` (R81): the descriptor and the operand bytes, the decoded-instruction slot of R34. It changes no
state. -/
def identify (s : State) : Except Fault (DecodeRow × List Byte) := do
  let op ← memRead s s.pc
  match lookup op with
  | none => .error (.unknownOpcode op s.pc)
  | some row =>
    let bytes ← fetchOperands s row.mode.operandLength (s.pc + 1#16)
    return (row, bytes)

/-- Put bytes into the owners' storage from `a` on, as a loader does before a run (R242); not a bus access. -/
def placeBytes : List Byte → Addr → Memory → Memory
  | [], _, m => m
  | b :: bs, a, m => placeBytes bs (a + 1#16) (Memory.write m a.toNat b)

end Sys2Proof.Machine
end

