-- ==== Sys2Proof/Machine/Cycle.lean ====
section
/-! DEFINITION. The fetch, decode and execute cycle of a running state (spec/40). -/

namespace Sys2Proof.Machine

/-- The end of a step: a completed instruction emits its trace record, a fault or a refusal emits none (R88, R89). -/
def emitIfCompleted (r : TraceRecord) : Host.Outcome State Fault Refusal → Host.Outcome State Fault Refusal
  | .next t => .next (t.emit r)
  | .fault f => .fault f
  | .refused q => .refused q

/-- One step of a running state: Identify, Execute, emit the trace record (R80). -/
def stepRunning (s : State) : Host.Outcome State Fault Refusal :=
  match identify s with
  | .error f => .fault f
  | .ok slot => emitIfCompleted (traceRecord s slot.1.mnemonic slot.2) (exec (slot.1.instr slot.2) s)

end Sys2Proof.Machine
end

