-- ==== Sys2Proof/Machine/Step.lean ====
section
/-! DEFINITION. One step (R80), and the host's placing of an instruction where the step fetches. -/

namespace Sys2Proof.Machine

/-- The step. It is enabled only when the run status is `Running`; no step leaves another status (R35, R80). -/
def step (s : State) : Host.Outcome State Fault Refusal :=
  match s.run with
  | .running => stepRunning s
  | .halted => .refused .halted
  | .faulted f => .fault f
  | .refused op pc => .refused (.brkRefused op pc)

/-- `s` with a table word's three bytes at the program counter (notes/assumptions/4.md). -/
def State.withFetchWord (s : State) (nbits w : Nat) : State :=
  s.setMem (placeBytes (tableWordBytes nbits w) s.pc s.mem)

end Sys2Proof.Machine
end

