-- ==== Sys2Proof/Safety.lean ====
section
/-! DEFINITION. The terms claims use: what can be read and written (R41), the effective address and its faults as
relations (R104 to R113), the invariant of a state (R31, R36, R42), and the moves of the run status (R35, R88, R90). -/

namespace Sys2Proof.Machine

/-! ### Access -/

/-- Some owner holds the address (R41). -/
def Mapped (s : State) (a : Addr) : Prop := ∃ o, ownerOf s.cfg a = some o

/-- An owner other than ROM holds the address (R41). -/
def Writable (s : State) (a : Addr) : Prop := ∃ o, ownerOf s.cfg a = some o ∧ o.kind ≠ .rom

/-- A ROM owner holds the address (R43). -/
def InRom (s : State) (a : Addr) : Prop := ∃ o, ownerOf s.cfg a = some o ∧ o.kind = .rom

/-- No owner holds the address (R41). -/
def Unmapped (s : State) (a : Addr) : Prop := ownerOf s.cfg a = none

/-- The address is mapped and holds the byte (R41, R43). -/
def Reads (s : State) (a : Addr) (v : Byte) : Prop := Mapped s a ∧ Memory.read s.mem a.toNat = v

/-- The fault of a write to the address (R41): unmapped first, then ROM (R228). -/
def WriteFaults (s : State) (a : Addr) (f : Fault) : Prop :=
  (Unmapped s a ∧ f = .unmappedMemoryAddress a) ∨ (InRom s a ∧ f = .readOnlyWriteViolation a)

/-! ### Addressing, as the rules state it -/

/-- A little-endian pointer whose bytes lie at `lo` and `hi` holds `w` (R46). -/
def PointerIs (s : State) (lo hi w : Addr) : Prop :=
  ∃ l h, Reads s lo l ∧ Reads s hi h ∧ w = BitVec.ofNat 16 (256 * h.toNat + l.toNat)

/-- Reading that pointer faults: the low byte's read comes first (R228). -/
def PointerFaults (s : State) (lo hi : Addr) (f : Fault) : Prop :=
  (Unmapped s lo ∧ f = .unmappedMemoryAddress lo) ∨ (Mapped s lo ∧ Unmapped s hi ∧ f = .unmappedMemoryAddress hi)

/-- The address of the high byte of a zero-page pointer at `p`, as R112 and R113 give it. -/
def ZpHigh (s : State) (p : Byte) : Addr :=
  if s.cfg.zpPointerWrap then BitVec.ofNat 16 ((p.toNat + 1) % 256) else BitVec.ofNat 16 (p.toNat + 1)

/-- The address of the high byte of an indirect JMP's pointer, as R111 gives it. -/
def JmpHigh (ptr : Addr) : Addr :=
  if ptr.toNat % 256 = 255 then ptr - 0xFF#16 else ptr + 1#16

/-- The effective address of an operand, mode by mode (R104 to R113); `s` has `PC = PCpost`. -/
def EaIs (m : EaOperand) (s : State) (ea : Addr) : Prop :=
  match m with
  | .zeroPage b => ea = BitVec.ofNat 16 b.toNat
  | .zeroPageX b => ea = BitVec.ofNat 16 ((b.toNat + s.x.toNat) % 256)
  | .zeroPageY b => ea = BitVec.ofNat 16 ((b.toNat + s.y.toNat) % 256)
  | .absolute w => ea = w
  | .absoluteX w => ea = BitVec.ofNat 16 (w.toNat + s.x.toNat)
  | .absoluteY w => ea = BitVec.ofNat 16 (w.toNat + s.y.toNat)
  | .relative off => ea = BitVec.ofInt 16 (s.pc.toNat + off.toInt)
  | .indirect ptr => PointerIs s ptr (JmpHigh ptr) ea
  | .indexedIndirect b =>
    PointerIs s (BitVec.ofNat 16 ((b.toNat + s.x.toNat) % 256)) (ZpHigh s (b + s.x)) ea
  | .indirectIndexed b =>
    ∃ w, PointerIs s (BitVec.ofNat 16 b.toNat) (ZpHigh s b) w ∧ ea = BitVec.ofNat 16 (w.toNat + s.y.toNat)

/-- Resolving an operand faults: only the three pointer modes can (R100). -/
def EaFaults (m : EaOperand) (s : State) (f : Fault) : Prop :=
  match m with
  | .indirect ptr => PointerFaults s ptr (JmpHigh ptr) f
  | .indexedIndirect b =>
    PointerFaults s (BitVec.ofNat 16 ((b.toNat + s.x.toNat) % 256)) (ZpHigh s (b + s.x)) f
  | .indirectIndexed b => PointerFaults s (BitVec.ofNat 16 b.toNat) (ZpHigh s b) f
  | .zeroPage _ | .zeroPageX _ | .zeroPageY _ | .absolute _ | .absoluteX _ | .absoluteY _ | .relative _ => False

/-- The operand value `get_data()` answers (R114). -/
def SourceReads (src : Source) (s : State) (v : Byte) : Prop :=
  match src with
  | .immediate b => v = b
  | .ea m => ∃ ea, EaIs m s ea ∧ Reads s ea v

/-- The fault `get_data()` raises: on a pointer read, or on the read at EA (R114, R222). -/
def SourceFaults (src : Source) (s : State) (f : Fault) : Prop :=
  match src with
  | .immediate _ => False
  | .ea m => EaFaults m s f ∨ ∃ ea, EaIs m s ea ∧ Unmapped s ea ∧ f = .unmappedMemoryAddress ea

/-! ### PC, stack and flags, as the rules state them -/

/-- `PCpost`: the address of the byte after the instruction (R82). -/
def pcPost (i : Instr) (s : State) : Addr := BitVec.ofNat 16 (s.pc.toNat + i.length)

/-- The byte the stack pointer designates is at `0x0100 + SP` (R26). -/
def StackAt (sp : Byte) : Addr := BitVec.ofNat 16 (256 + sp.toNat)

/-- The byte a push of P writes: the flags at their bit positions, bits 4 and 5 set (R27, R31). -/
def PushedP (p : Flags) : Byte :=
  BitVec.ofNat 8 (p.c.toNat + 2 * p.z.toNat + 4 * p.i.toNat + 8 * p.d.toNat + 48 + 64 * p.v.toNat + 128 * p.n.toNat)

/-- P after pulling the byte: bits 4 and 5 keep their values (R29, R31). -/
def PulledP (b : Byte) (p : Flags) : Flags where
  c := b.getLsbD 0
  z := b.getLsbD 1
  i := b.getLsbD 2
  d := b.getLsbD 3
  b4 := p.b4
  b5 := p.b5
  v := b.getLsbD 6
  n := b.getLsbD 7

/-- `NZ(v)` on the flags (R10, R85). -/
def Flags.withNZ (p : Flags) (v : Byte) : Flags := { p with z := decide (v.toNat = 0), n := decide (v.toNat ≥ 128) }

/-! ### The invariant -/

/-- What holds of every state a run from a well-formed start reaches. -/
structure Inv (s : State) : Prop where
  /-- The parameters are well formed (R6, R42). -/
  cfg   : s.cfg.WellFormed
  /-- Memory is in canonical form. -/
  mem   : Memory.wf s.mem
  /-- Bytes are held by owners only (R43). -/
  owned : CellsOwned s.cfg.owners s.mem
  /-- `P.B4 = P.B5 = 0` (R31). -/
  b4    : s.p.b4 = false
  b5    : s.p.b5 = false
  /-- `to_int(P) & 0x30 = 0` in every trace record (R31). -/
  trace : ∀ r ∈ s.trace, r.p &&& 0x30#8 = 0#8

/-! ### The moves of the run status -/

/-- One move of the block or its host (R35, R88, R90). After a fault in Identify nothing has changed; after a fault in
Execute only the run status, the parameters and the trace are known, and registers and memory are any values (R88);
after BRK's refusal nothing has changed (R194). -/
def Moves (s t : State) : Prop :=
  s.run = .running ∧
    (step s = .next t
      ∨ (∃ f, identify s = .error f ∧ t = s.setRun (.faulted f))
      ∨ (∃ f row, identify s = .ok row ∧ step s = .fault f ∧ t.run = .faulted f ∧ t.cfg = s.cfg ∧ t.trace = s.trace)
      ∨ (∃ op pc, step s = .refused (.brkRefused op pc) ∧ t = s.setRun (.refused op pc))
      ∨ t = hostHalt s)

/-- A safe step: the block goes on. -/
def StepCompletes (s : State) : Prop := ∃ t, step s = .next t

end Sys2Proof.Machine
end

