-- ==== Sys2Proof/Certificates/Slice0/Obligations.lean ====
section
/-! DEFINITION. The statements for the provers, from the numbered rules of spec/. `Reads`, `EaIs`, `SourceReads`,
`StackAt` and the like (Sys2Proof/Safety.lean) state conditions on a state; `exec` is the instruction alone, `step` the
whole step. An equality `exec i s = .next { s with … }` says also that everything it does not name is unchanged. -/

open Sys2Proof Sys2Proof.Machine

namespace Sys2Proof.Claims

/-- The mnemonic has exactly these forms: addressing mode and opcode byte (R67 and the opcode list of each rule). -/
def HasForms (m : Mnemonic) (forms : List (AddrMode × Byte)) : Prop :=
  (∀ i : Instr, i.mnemonic = m → (i.operand.mode, i.opcode) ∈ forms) ∧
    ∀ q ∈ forms, ∃ i : Instr, i.mnemonic = m ∧ i.operand.mode = q.1 ∧ i.opcode = q.2

/-- The eight forms of AND, ORA, EOR, ADC, SBC, CMP and LDA, in the order of R142. -/
def eightForms (imm zp zpx abs absx absy indx indy : Byte) : List (AddrMode × Byte) :=
  [(.immediate, imm), (.zeroPage, zp), (.zeroPageX, zpx), (.absolute, abs), (.absoluteX, absx), (.absoluteY, absy),
    (.indexedIndirect, indx), (.indirectIndexed, indy)]

/-- The five forms of a shift or rotate, in the order of R167. -/
def shiftForms (acc zp zpx abs absx : Byte) : List (AddrMode × Byte) :=
  [(.accumulator, acc), (.zeroPage, zp), (.zeroPageX, zpx), (.absolute, abs), (.absoluteX, absx)]

/-- The bytes of R68 below 0x60. -/
def unknownOpcodesLow : List Byte :=
  [0x02, 0x03, 0x04, 0x07, 0x0B, 0x0C, 0x0F, 0x12, 0x13, 0x14, 0x17, 0x1A, 0x1B, 0x1C, 0x1F, 0x22, 0x23, 0x27,
    0x2B, 0x2F, 0x32, 0x33, 0x34, 0x37, 0x3A, 0x3B, 0x3C, 0x3F, 0x42, 0x43, 0x44, 0x47, 0x4B, 0x4F, 0x52, 0x53,
    0x54, 0x57, 0x5A, 0x5B, 0x5C, 0x5F]

/-- The bytes of R68 from 0x60 on. -/
def unknownOpcodesHigh : List Byte :=
  [0x62, 0x63, 0x64, 0x67, 0x6B, 0x6F, 0x72, 0x73, 0x74, 0x77, 0x7A, 0x7B, 0x7C, 0x7F, 0x80, 0x82, 0x83, 0x87,
    0x89, 0x8B, 0x8F, 0x92, 0x93, 0x97, 0x9B, 0x9C, 0x9E, 0x9F, 0xA3, 0xA7, 0xAB, 0xAF, 0xB2, 0xB3, 0xB7, 0xBB,
    0xBF, 0xC2, 0xC3, 0xC7, 0xCB, 0xCF, 0xD2, 0xD3, 0xD4, 0xD7, 0xDA, 0xDB, 0xDC, 0xDF, 0xE2, 0xE3, 0xE7, 0xEB,
    0xEF, 0xF2, 0xF3, 0xF4, 0xF7, 0xFA, 0xFB, 0xFC, 0xFF]

/-- The 105 opcode bytes that decode to Unknown (R68). -/
def unknownOpcodes : List Byte := unknownOpcodesLow ++ unknownOpcodesHigh

/-- The bytes of `i` lie at the program counter, each readable (R61, R81). -/
def BytesAtPc (i : Instr) (s : State) : Prop :=
  ∀ (k : Nat) (b : Byte), (encode i)[k]? = some b → Reads s (BitVec.ofNat 16 (s.pc.toNat + k)) b

/-- What shifting `v` with carry-in `cin` gives, per mnemonic: the byte and the carry (R167 to R170). -/
def ShiftGives (m : Mnemonic) (v : Byte) (cin : Bool) (r : Byte) (c : Bool) : Prop :=
  (m = .ASL ∧ r = BitVec.ofNat 8 (2 * v.toNat) ∧ c = v.getLsbD 7) ∨
  (m = .LSR ∧ r = BitVec.ofNat 8 (v.toNat / 2) ∧ c = v.getLsbD 0) ∨
  (m = .ROL ∧ r = BitVec.ofNat 8 (2 * v.toNat + cin.toNat) ∧ c = v.getLsbD 7) ∨
  (m = .ROR ∧ r = BitVec.ofNat 8 (v.toNat / 2 + 128 * cin.toNat) ∧ c = v.getLsbD 0)

/-- The state after a branch to `offset` from `s`, taken or not (R110, R195). -/
def afterBranch (s : State) (offset : Byte) (taken : Bool) : State :=
  { s with pc := if taken then BitVec.ofInt 16 (s.pc.toNat + 2 + offset.toInt) else BitVec.ofNat 16 (s.pc.toNat + 2) }

/-- The address JSR pushes (R191). -/
def returnAddress (s : State) : Addr := BitVec.ofInt 16 (s.pc.toNat + 3 - s.cfg.returnBias.val)

/-- `s` with another D and I. -/
def withDI (s : State) (d i : Bool) : State := { s with p := { s.p with d := d, i := i } }

/-- Two outcomes that agree on everything but D and I. -/
def SameButDI : Host.Outcome State Fault Refusal → Host.Outcome State Fault Refusal → Prop
  | .next t, .next u => ∃ d i, u = withDI t d i
  | .fault f, .fault g => f = g
  | .refused r, .refused q => r = q
  | .next _, .fault _ | .next _, .refused _ | .fault _, .next _ | .fault _, .refused _ | .refused _, .next _
  | .refused _, .fault _ => False

/-- The byte at an address reads the same in both states. -/
def SameByte (s t : State) (a : Addr) : Prop := Memory.read t.mem a.toNat = Memory.read s.mem a.toNat

end Sys2Proof.Claims

open Sys2Proof.Claims

/-! ### Encoding -/

/-- Bytes written out from the spec decode to the instruction they stand for (R63's three rows, and one opcode of
every family of L2.0 and R66). -/
def Obligations.WrittenOutBytesDecode : Prop :=
  decode [0xA9, 0x05] = .ok (.ldaImmediate 0x05, []) ∧
  decode [0x8D, 0x00, 0x02] = .ok (.staAbsolute 0x0200, []) ∧
  decode [0xB1, 0x20] = .ok (.ldaIndirectIndexed 0x20, []) ∧
  decode [0x0A] = .ok (.aslAccumulator, []) ∧
  decode [0x6C, 0xFF, 0x02] = .ok (.jmpIndirect 0x02FF, []) ∧
  decode [0x96, 0xFF] = .ok (.stxZeroPageY 0xFF, []) ∧
  decode [0x69, 0x50, 0xEA] = .ok (.adcImmediate 0x50, [0xEA]) ∧
  decode [0x28] = .ok (.plp, []) ∧
  decode [0xD0, 0xFD] = .ok (.bne 0xFD, []) ∧
  decode [0xEA] = .ok (.nop, [])

/-- Decoding the encoding of any instruction, with any bytes after it, gives the instruction and those bytes (R60 to
R63, R67). -/
def Obligations.DecodeOfEncodeIsTheInstruction : Prop :=
  ∀ (i : Instr) (rest : List Byte), decode (encode i ++ rest) = .ok (i, rest)

/-- Every word has one meaning: bytes that decode are the encoding of what they decode to (R63, R65). -/
def Obligations.EncodeOfDecodeIsTheBytes : Prop :=
  ∀ (bytes rest : List Byte) (i : Instr), decode bytes = .ok (i, rest) → bytes = encode i ++ rest

/-- The 105 bytes of R68, and no others, are Unknown, whatever follows them; a step at one raises
`UnknownOpcode(opcode, PC)` and leaves everything but the run status as it was (R64, R68, R221). -/
def Obligations.UnknownOpcodesFaultBeforeAnyChange : Prop :=
  (∀ (op : Byte) (rest : List Byte), op ∈ unknownOpcodes ↔ decode (op :: rest) = .error (.unknownOpcode op)) ∧
  ∀ (s : State) (op : Byte), s.run = .running → Reads s s.pc op → op ∈ unknownOpcodes →
    step s = .fault (.unknownOpcode op s.pc) ∧
    ∀ t, Moves s t → t = { s with run := .faulted (.unknownOpcode op s.pc) } ∨ t = { s with run := .halted }

/-! ### The step -/

/-- A step at the bytes of an instruction is `exec` of it, and when it completes it emits one trace record: the opcode
address, the name, the operand bytes, and A, X, Y, `to_int(P)` and SP as they were before Execute (R80, R88, R89). -/
def Obligations.StepExecutesTheInstructionAtPc : Prop :=
  ∀ (i : Instr) (s : State), s.run = .running → BytesAtPc i s →
    step s = match exec i s with
      | .next t => .next { t with trace :=
          { pc := s.pc, mnemonic := i.mnemonic, operands := (encode i).drop 1, a := s.a, x := s.x, y := s.y,
            p := s.p.toInt, sp := s.sp } :: t.trace }
      | .fault f => .fault f
      | .refused r => .refused r

/-- Identify raises `UnmappedMemoryAddress` at the first byte it cannot read: the opcode, then the operand bytes in
order, addresses modulo 65536; nothing but the run status changes (R81, R222, R228). -/
def Obligations.IdentifyFaultsAtTheFirstUnmappedByte : Prop :=
  ∀ (i : Instr) (s : State) (k : Nat), s.run = .running → k < i.length →
    (∀ (j : Nat) (b : Byte), j < k → (encode i)[j]? = some b → Reads s (BitVec.ofNat 16 (s.pc.toNat + j)) b) →
    Unmapped s (BitVec.ofNat 16 (s.pc.toNat + k)) →
    step s = .fault (.unmappedMemoryAddress (BitVec.ofNat 16 (s.pc.toNat + k))) ∧
    ∀ t, Moves s t → t = { s with run := .faulted (.unmappedMemoryAddress (BitVec.ofNat 16 (s.pc.toNat + k))) } ∨
      t = { s with run := .halted }

/-- No instruction ends the loop: a step that completes leaves the status `Running` and has emitted exactly one
record (R89, R91). -/
def Obligations.NoInstructionStopsTheRun : Prop :=
  ∀ s t : State, step s = .next t → s.run = .running ∧ t.run = .running ∧ ∃ r, t.trace = r :: s.trace

/-- `Halted`, `Faulted` and `Refused` are terminal (R35): no step completes and no move is enabled, and what stopped
the block is still reported. -/
def Obligations.TerminalStatusesAreNeverLeft : Prop :=
  ∀ s : State, s.run ≠ .running →
    (∀ t, step s ≠ .next t) ∧ (∀ t, ¬ Moves s t) ∧ (∀ f, s.run = .faulted f → step s = .fault f)

/-- The host may halt a running block between any two steps; the halt changes the run status alone, and no step
follows it (R90). -/
def Obligations.HostHaltIsEnabledBetweenSteps : Prop :=
  ∀ s : State, s.run = .running →
    Moves s { s with run := .halted } ∧ step { s with run := .halted } = .refused .halted ∧
    ∀ t, ¬ Moves { s with run := .halted } t

/-- Loading a table word at PC makes the next step run the instruction it decodes to, where the three addresses after
PC are mapped (the host's `withFetchWord`; the model's own interface, notes/assumptions/4.md). -/
def Obligations.PlacedTableWordRunsNext : Prop :=
  ∀ (s : State) (nbits w : Nat) (i : Instr), s.run = .running → decodeTableWord nbits w = some i →
    Mapped s s.pc → Mapped s (s.pc + 1#16) → Mapped s (s.pc + 2#16) →
    BytesAtPc i (s.withFetchWord nbits w) ∧
    ∀ t, exec i (s.withFetchWord nbits w) = .next t → ∃ r, step (s.withFetchWord nbits w) = .next (t.emit r)

/-! ### Addressing and the bus -/

/-- The resolver answers exactly the effective address of the rules, in every mode that has one (R104 to R113); with
the rest of R111 to R113, where a pointer cannot be read it faults. -/
def Obligations.ResolverGivesTheEffectiveAddress : Prop :=
  ∀ (m : EaOperand) (s : State),
    (∀ ea, effectiveAddr m s = .ok ea ↔ EaIs m s ea) ∧ (∀ f, effectiveAddr m s = .error f ↔ EaFaults m s f)

/-- The two bus operations (R41): a read answers the byte of a mapped address or faults; a write changes that byte and
no other, or faults, unmapped before ROM. -/
def Obligations.BusReadsAndWritesOneByte : Prop :=
  ∀ (s : State) (a : Addr) (v : Byte),
    (∀ b, Reads s a b → memRead s a = .ok b) ∧
    (Unmapped s a → memRead s a = .error (.unmappedMemoryAddress a) ∧
      memWrite s a v = .error (.unmappedMemoryAddress a)) ∧
    (InRom s a → memWrite s a v = .error (.readOnlyWriteViolation a)) ∧
    (Writable s a → ∃ t, memWrite s a v = .ok t ∧ memRead t a = .ok v ∧
      (∀ b, b ≠ a → memRead t b = memRead s b) ∧ t = { s with mem := t.mem })

/-- With non-overlapping ranges the bus finds the owner whose range holds the address, whatever the order of the
list (R42). -/
def Obligations.OwnerOfIsTheCoveringOwner : Prop :=
  ∀ (cfg : Config) (a : Addr) (o : Owner), OwnerMapWellFormed cfg.owners →
    (ownerOf cfg a = some o ↔ o ∈ cfg.owners ∧ o.start.toNat ≤ a.toNat ∧ a.toNat ≤ o.stop.toNat)

/-! ### Status byte, start-up, invariants -/

/-- `to_int` puts each flag at its bit, `from_int` takes each flag from its bit unless the position is ignored, and
unpacking a packed P with nothing ignored gives it back (R27 to R29). -/
def Obligations.StatusBytePacksAndUnpacks : Prop :=
  (∀ p : Flags, p.toInt.getLsbD 0 = p.c ∧ p.toInt.getLsbD 1 = p.z ∧ p.toInt.getLsbD 2 = p.i ∧
    p.toInt.getLsbD 3 = p.d ∧ p.toInt.getLsbD 4 = p.b4 ∧ p.toInt.getLsbD 5 = p.b5 ∧ p.toInt.getLsbD 6 = p.v ∧
    p.toInt.getLsbD 7 = p.n) ∧
  (∀ (b : Byte) (ignored : List Nat) (p : Flags),
    ((p.fromInt b ignored).c = if 0 ∈ ignored then p.c else b.getLsbD 0) ∧
    ((p.fromInt b ignored).z = if 1 ∈ ignored then p.z else b.getLsbD 1) ∧
    ((p.fromInt b ignored).i = if 2 ∈ ignored then p.i else b.getLsbD 2) ∧
    ((p.fromInt b ignored).d = if 3 ∈ ignored then p.d else b.getLsbD 3) ∧
    ((p.fromInt b ignored).b4 = if 4 ∈ ignored then p.b4 else b.getLsbD 4) ∧
    ((p.fromInt b ignored).b5 = if 5 ∈ ignored then p.b5 else b.getLsbD 5) ∧
    ((p.fromInt b ignored).v = if 6 ∈ ignored then p.v else b.getLsbD 6) ∧
    ((p.fromInt b ignored).n = if 7 ∈ ignored then p.n else b.getLsbD 7)) ∧
  ∀ p q : Flags, q.fromInt p.toInt [] = p

/-- Start-up under any parameters leaves the registers, flags, status and memory R36 gives; with R6's default the PC
is 0x0000. -/
def Obligations.StartUpLeavesTheResetValues : Prop :=
  (∀ cfg : Config,
    let s := State.start cfg
    s.pc = cfg.initialPc ∧ s.sp = 0xFD ∧ s.a = 0x00 ∧ s.x = 0x00 ∧ s.y = 0x00 ∧ s.p.i = true ∧ s.p.c = false ∧
    s.p.z = false ∧ s.p.d = false ∧ s.p.b4 = false ∧ s.p.b5 = false ∧ s.p.v = false ∧ s.p.n = false ∧
    s.p.toInt = 0x04 ∧ s.run = .running ∧ s.mem = cfg.initialMemory) ∧
  State.reset.pc = 0x0000

/-- The invariant holds at start-up under well-formed parameters, and at reset. -/
def Obligations.StartUpMeetsTheInvariant : Prop :=
  (∀ cfg : Config, cfg.WellFormed → Inv (State.start cfg)) ∧ Inv State.reset

/-- Every step keeps the invariant: memory stays in canonical form and inside the owners, `P.B4 = P.B5 = 0`, and every
trace record has bits 4 and 5 clear (R31, R42, R43). -/
def Obligations.EveryStepKeepsTheInvariant : Prop :=
  ∀ s t : State, Inv s → step s = .next t → Inv t

/-- Whatever a program does, the parameters stay, and a byte in ROM or behind no owner stays (R42, R43, R53). -/
def Obligations.NoStepChangesRomOrOwnership : Prop :=
  ∀ s t : State, step s = .next t → t.cfg = s.cfg ∧ ∀ a : Addr, ¬ Writable s a → SameByte s t a

/-- No step writes B4 or B5 (R30, R31). -/
def Obligations.NoStepWritesTheUnusedBits : Prop :=
  ∀ s t : State, step s = .next t → t.p.b4 = s.p.b4 ∧ t.p.b5 = s.p.b5

/-! ### Loads, stores, transfers -/

/-- LDA, LDX and LDY (R120 to R122). -/
def Obligations.LoadsWriteRegisterAndNZ : Prop :=
  HasForms .LDA (eightForms 0xA9 0xA5 0xB5 0xAD 0xBD 0xB9 0xA1 0xB1) ∧
  HasForms .LDX [(.immediate, 0xA2), (.zeroPage, 0xA6), (.zeroPageY, 0xB6), (.absolute, 0xAE), (.absoluteY, 0xBE)] ∧
  HasForms .LDY [(.immediate, 0xA0), (.zeroPage, 0xA4), (.zeroPageX, 0xB4), (.absolute, 0xAC), (.absoluteX, 0xBC)] ∧
  ∀ (i : Instr) (src : Source) (s : State), i.operand = src.operand →
    (∀ v, SourceReads src s v →
      (i.mnemonic = .LDA → exec i s = .next { s with pc := pcPost i s, a := v, p := s.p.withNZ v }) ∧
      (i.mnemonic = .LDX → exec i s = .next { s with pc := pcPost i s, x := v, p := s.p.withNZ v }) ∧
      (i.mnemonic = .LDY → exec i s = .next { s with pc := pcPost i s, y := v, p := s.p.withNZ v })) ∧
    (∀ f, SourceFaults src s f → i.mnemonic ∈ [.LDA, .LDX, .LDY] → exec i s = .fault f)

/-- STA, STX and STY (R123 to R125). -/
def Obligations.StoresWriteMemoryAndNoFlag : Prop :=
  HasForms .STA [(.zeroPage, 0x85), (.zeroPageX, 0x95), (.absolute, 0x8D), (.absoluteX, 0x9D), (.absoluteY, 0x99),
    (.indexedIndirect, 0x81), (.indirectIndexed, 0x91)] ∧
  HasForms .STX [(.zeroPage, 0x86), (.zeroPageY, 0x96), (.absolute, 0x8E)] ∧
  HasForms .STY [(.zeroPage, 0x84), (.zeroPageX, 0x94), (.absolute, 0x8C)] ∧
  decode [0x89] = .error (.unknownOpcode 0x89) ∧
  ∀ (i : Instr) (m : EaOperand) (s : State), i.operand = .ea m →
    (∀ ea, EaIs m s ea → Writable s ea →
      (i.mnemonic = .STA →
        exec i s = .next { s with pc := pcPost i s, mem := Memory.write s.mem ea.toNat s.a }) ∧
      (i.mnemonic = .STX →
        exec i s = .next { s with pc := pcPost i s, mem := Memory.write s.mem ea.toNat s.x }) ∧
      (i.mnemonic = .STY →
        exec i s = .next { s with pc := pcPost i s, mem := Memory.write s.mem ea.toNat s.y })) ∧
    (∀ f, (EaFaults m s f ∨ ∃ ea, EaIs m s ea ∧ WriteFaults s ea f) → i.mnemonic ∈ [.STA, .STX, .STY] →
      exec i s = .fault f)

/-- The six transfers (R126 to R131); TXS sets no flags. -/
def Obligations.TransfersCopyRegisters : Prop :=
  encode .tax = [0xAA] ∧ encode .tay = [0xA8] ∧ encode .txa = [0x8A] ∧ encode .tya = [0x98] ∧ encode .tsx = [0xBA] ∧
  encode .txs = [0x9A] ∧
  ∀ s : State,
    exec .tax s = .next { s with pc := pcPost .tax s, x := s.a, p := s.p.withNZ s.a } ∧
    exec .tay s = .next { s with pc := pcPost .tay s, y := s.a, p := s.p.withNZ s.a } ∧
    exec .txa s = .next { s with pc := pcPost .txa s, a := s.x, p := s.p.withNZ s.x } ∧
    exec .tya s = .next { s with pc := pcPost .tya s, a := s.y, p := s.p.withNZ s.y } ∧
    exec .tsx s = .next { s with pc := pcPost .tsx s, x := s.sp, p := s.p.withNZ s.sp } ∧
    exec .txs s = .next { s with pc := pcPost .txs s, sp := s.x }

/-! ### Logic, arithmetic, compare, bit test -/

/-- AND, ORA and EOR (R142 to R144), bit by bit. -/
def Obligations.LogicalOperationsCombineWithA : Prop :=
  HasForms .AND (eightForms 0x29 0x25 0x35 0x2D 0x3D 0x39 0x21 0x31) ∧
  HasForms .ORA (eightForms 0x09 0x05 0x15 0x0D 0x1D 0x19 0x01 0x11) ∧
  HasForms .EOR (eightForms 0x49 0x45 0x55 0x4D 0x5D 0x59 0x41 0x51) ∧
  ∀ (i : Instr) (src : Source) (s : State), i.operand = src.operand →
    (∀ v r, SourceReads src s v →
      ((i.mnemonic = .AND ∧ ∀ k < 8, r.getLsbD k = (s.a.getLsbD k && v.getLsbD k)) ∨
       (i.mnemonic = .ORA ∧ ∀ k < 8, r.getLsbD k = (s.a.getLsbD k || v.getLsbD k)) ∨
       (i.mnemonic = .EOR ∧ ∀ k < 8, r.getLsbD k = (s.a.getLsbD k ^^ v.getLsbD k))) →
      exec i s = .next { s with pc := pcPost i s, a := r, p := s.p.withNZ r }) ∧
    (∀ f, SourceFaults src s f → i.mnemonic ∈ [.AND, .ORA, .EOR] → exec i s = .fault f)

/-- ADC (R140, R145): the sum on unbounded integers, reduced; C when it reaches 256; V exactly when the operands' signs
agree and the sum's differs. D is not read (R151). -/
def Obligations.AdcAddsWithCarry : Prop :=
  HasForms .ADC (eightForms 0x69 0x65 0x75 0x6D 0x7D 0x79 0x61 0x71) ∧
  ∀ (i : Instr) (src : Source) (s : State), i.mnemonic = .ADC → i.operand = src.operand →
    (∀ (m r : Byte) (sum : Nat), SourceReads src s m → sum = s.a.toNat + m.toNat + s.p.c.toNat →
      r = BitVec.ofNat 8 (sum % 256) →
      exec i s = .next { s with
        pc := pcPost i s
        a := r
        p := { s.p.withNZ r with
          c := decide (sum ≥ 256)
          v := s.a.getLsbD 7 == m.getLsbD 7 && r.getLsbD 7 != s.a.getLsbD 7 } }) ∧
    (∀ f, SourceFaults src s f → exec i s = .fault f)

/-- SBC (R146): `s = (A - m - (1 - P.C)) mod 256`, C exactly when that difference is not negative, V as for the sum
with the operand's one's complement. D is not read (R151). -/
def Obligations.SbcSubtractsWithBorrow : Prop :=
  HasForms .SBC (eightForms 0xE9 0xE5 0xF5 0xED 0xFD 0xF9 0xE1 0xF1) ∧
  ∀ (i : Instr) (src : Source) (s : State), i.mnemonic = .SBC → i.operand = src.operand →
    (∀ (m r : Byte) (diff : Int), SourceReads src s m →
      diff = (s.a.toNat : Int) - m.toNat - (1 - s.p.c.toNat) → r = BitVec.ofInt 8 diff →
      exec i s = .next { s with
        pc := pcPost i s
        a := r
        p := { s.p.withNZ r with
          c := decide (diff ≥ 0)
          v := s.a.getLsbD 7 != m.getLsbD 7 && r.getLsbD 7 != s.a.getLsbD 7 } }) ∧
    (∀ f, SourceFaults src s f → exec i s = .fault f)

/-- CMP, CPX and CPY (R141, R147 to R149): no register is written; C when the register is at least the operand,
unsigned; N and Z from the difference modulo 256. -/
def Obligations.ComparesSetCarryZeroNegative : Prop :=
  HasForms .CMP (eightForms 0xC9 0xC5 0xD5 0xCD 0xDD 0xD9 0xC1 0xD1) ∧
  HasForms .CPX [(.immediate, 0xE0), (.zeroPage, 0xE4), (.absolute, 0xEC)] ∧
  HasForms .CPY [(.immediate, 0xC0), (.zeroPage, 0xC4), (.absolute, 0xCC)] ∧
  ∀ (i : Instr) (src : Source) (s : State), i.operand = src.operand →
    (∀ reg m, SourceReads src s m →
      ((i.mnemonic = .CMP ∧ reg = s.a) ∨ (i.mnemonic = .CPX ∧ reg = s.x) ∨ (i.mnemonic = .CPY ∧ reg = s.y)) →
      exec i s = .next { s with
        pc := pcPost i s
        p := { s.p.withNZ (BitVec.ofInt 8 ((reg.toNat : Int) - m.toNat)) with c := decide (reg.toNat ≥ m.toNat) } }) ∧
    (∀ f, SourceFaults src s f → i.mnemonic ∈ [.CMP, .CPX, .CPY] → exec i s = .fault f)

/-- BIT (R150): Z when `A & m` has no bit, N and V from bits 7 and 6 of m; A and C unchanged. -/
def Obligations.BitTestsAgainstA : Prop :=
  HasForms .BIT [(.zeroPage, 0x24), (.absolute, 0x2C)] ∧
  ∀ (i : Instr) (src : Source) (s : State), i.mnemonic = .BIT → i.operand = src.operand →
    (∀ m, SourceReads src s m →
      exec i s = .next { s with
        pc := pcPost i s
        p := { s.p with
          z := decide (∀ k : Fin 8, ¬ (s.a.getLsbD k = true ∧ m.getLsbD k = true))
          n := m.getLsbD 7
          v := m.getLsbD 6 } }) ∧
    (∀ f, SourceFaults src s f → exec i s = .fault f)

/-! ### Increment, decrement, shift, rotate -/

/-- INX, DEX, INY and DEY (R161 to R164): modulo 256, N and Z, no other flag. -/
def Obligations.RegisterIncrementsWrap : Prop :=
  encode .inx = [0xE8] ∧ encode .dex = [0xCA] ∧ encode .iny = [0xC8] ∧ encode .dey = [0x88] ∧
  ∀ (s : State) (r : Byte),
    (r.toNat = (s.x.toNat + 1) % 256 →
      exec .inx s = .next { s with pc := pcPost .inx s, x := r, p := s.p.withNZ r }) ∧
    (r.toNat = (s.x.toNat + 255) % 256 →
      exec .dex s = .next { s with pc := pcPost .dex s, x := r, p := s.p.withNZ r }) ∧
    (r.toNat = (s.y.toNat + 1) % 256 →
      exec .iny s = .next { s with pc := pcPost .iny s, y := r, p := s.p.withNZ r }) ∧
    (r.toNat = (s.y.toNat + 255) % 256 →
      exec .dey s = .next { s with pc := pcPost .dey s, y := r, p := s.p.withNZ r })

/-- INC and DEC (R160, R165, R166): one read, one write; an unmapped EA faults at the read, a ROM one at the write. -/
def Obligations.MemoryIncrementsReadThenWrite : Prop :=
  HasForms .INC [(.zeroPage, 0xE6), (.zeroPageX, 0xF6), (.absolute, 0xEE), (.absoluteX, 0xFE)] ∧
  HasForms .DEC [(.zeroPage, 0xC6), (.zeroPageX, 0xD6), (.absolute, 0xCE), (.absoluteX, 0xDE)] ∧
  ∀ (i : Instr) (m : EaOperand) (s : State) (ea : Addr), i.operand = .ea m → EaIs m s ea →
    (∀ v r : Byte, Reads s ea v → Writable s ea →
      ((i.mnemonic = .INC ∧ r.toNat = (v.toNat + 1) % 256) ∨ (i.mnemonic = .DEC ∧ r.toNat = (v.toNat + 255) % 256)) →
      exec i s = .next { s with pc := pcPost i s, mem := Memory.write s.mem ea.toNat r, p := s.p.withNZ r }) ∧
    (∀ f, WriteFaults s ea f → i.mnemonic ∈ [.INC, .DEC] → exec i s = .fault f)

/-- ASL, LSR, ROL and ROR (R160, R167 to R170) on the accumulator and on memory. -/
def Obligations.ShiftsRotateThroughCarry : Prop :=
  HasForms .ASL (shiftForms 0x0A 0x06 0x16 0x0E 0x1E) ∧ HasForms .LSR (shiftForms 0x4A 0x46 0x56 0x4E 0x5E) ∧
  HasForms .ROL (shiftForms 0x2A 0x26 0x36 0x2E 0x3E) ∧ HasForms .ROR (shiftForms 0x6A 0x66 0x76 0x6E 0x7E) ∧
  ∀ (i : Instr) (s : State) (v r : Byte) (c : Bool), ShiftGives i.mnemonic v s.p.c r c →
    (i.operand = .accumulator → s.a = v →
      exec i s = .next { s with pc := pcPost i s, a := r, p := { s.p.withNZ r with c := c } }) ∧
    (∀ m ea, i.operand = .ea m → EaIs m s ea →
      (Reads s ea v → Writable s ea →
        exec i s = .next { s with
          pc := pcPost i s
          mem := Memory.write s.mem ea.toNat r
          p := { s.p.withNZ r with c := c } }) ∧
      (∀ f, WriteFaults s ea f → exec i s = .fault f))

/-! ### Stack -/

/-- PHA and PHP (R180, R184, R185): write at `0x0100 + SP`, then SP - 1 modulo 256; PHP forces bits 4 and 5; no flag
changes. -/
def Obligations.PushesWriteThenDecrement : Prop :=
  encode .pha = [0x48] ∧ encode .php = [0x08] ∧
  ∀ (s : State) (sp : Byte), sp.toNat = (s.sp.toNat + 255) % 256 →
    (Writable s (StackAt s.sp) →
      exec .pha s = .next { s with
        pc := pcPost .pha s, mem := Memory.write s.mem (StackAt s.sp).toNat s.a, sp := sp } ∧
      exec .php s = .next { s with
        pc := pcPost .php s, mem := Memory.write s.mem (StackAt s.sp).toNat (PushedP s.p), sp := sp }) ∧
    (∀ f, WriteFaults s (StackAt s.sp) f → exec .pha s = .fault f ∧ exec .php s = .fault f)

/-- PLA and PLP (R181, R186, R187): SP + 1 modulo 256, then read; PLA sets N and Z, PLP takes six flags from the byte
and leaves B4 and B5. -/
def Obligations.PullsIncrementThenRead : Prop :=
  encode .pla = [0x68] ∧ encode .plp = [0x28] ∧
  ∀ (s : State) (sp : Byte), sp.toNat = (s.sp.toNat + 1) % 256 →
    (∀ b, Reads s (StackAt sp) b →
      exec .pla s = .next { s with pc := pcPost .pla s, sp := sp, a := b, p := s.p.withNZ b } ∧
      exec .plp s = .next { s with pc := pcPost .plp s, sp := sp, p := PulledP b s.p }) ∧
    (Unmapped s (StackAt sp) →
      exec .pla s = .fault (.unmappedMemoryAddress (StackAt sp)) ∧
      exec .plp s = .fault (.unmappedMemoryAddress (StackAt sp)))

/-- `Push16(w)` then `Pull16()` returns `w` and restores SP, for every `w` and every SP (R182, R183). -/
def Obligations.PullSixteenInvertsPushSixteen : Prop :=
  ∀ (w : Addr) (s t : State), push16 w s = .ok t →
    pull16 t = .ok (w, { t with sp := s.sp }) ∧ t = { s with sp := t.sp, mem := t.mem } ∧
    t.sp.toNat = (s.sp.toNat + 254) % 256

/-! ### Control transfer -/

/-- JMP (R190), with the page-wrap of the indirect form (R111). -/
def Obligations.JmpSetsPcToItsAddress : Prop :=
  HasForms .JMP [(.absolute, 0x4C), (.indirect, 0x6C)] ∧
  ∀ (w : Addr) (s : State),
    exec (.jmpAbsolute w) s = .next { s with pc := w } ∧
    (∀ (lo hi : Byte), Reads s w lo → Reads s (JmpHigh w) hi →
      exec (.jmpIndirect w) s = .next { s with pc := BitVec.ofNat 16 (256 * hi.toNat + lo.toNat) }) ∧
    (∀ f, PointerFaults s w (JmpHigh w) f → exec (.jmpIndirect w) s = .fault f)

/-- JSR (R191, under R180 and R182): push PCpost minus the bias, high byte first, then jump; either stack write may
fault, the first first. -/
def Obligations.JsrPushesReturnAddressAndJumps : Prop :=
  (∀ w, encode (.jsr w) = [0x20, BitVec.ofNat 8 (w.toNat % 256), BitVec.ofNat 8 (w.toNat / 256)]) ∧
  ∀ (w : Addr) (s : State) (sp1 sp2 : Byte),
    sp1.toNat = (s.sp.toNat + 255) % 256 → sp2.toNat = (s.sp.toNat + 254) % 256 →
    (Writable s (StackAt s.sp) → Writable s (StackAt sp1) →
      exec (.jsr w) s = .next { s with
        pc := w
        sp := sp2
        mem := Memory.write
          (Memory.write s.mem (StackAt s.sp).toNat (BitVec.ofNat 8 ((returnAddress s).toNat / 256)))
          (StackAt sp1).toNat (BitVec.ofNat 8 ((returnAddress s).toNat % 256)) }) ∧
    (∀ f, WriteFaults s (StackAt s.sp) f → exec (.jsr w) s = .fault f) ∧
    (∀ f, Writable s (StackAt s.sp) → WriteFaults s (StackAt sp1) f → exec (.jsr w) s = .fault f)

/-- RTS (R192, under R181 and R183): pull the low byte, then the high byte, and add the bias. -/
def Obligations.RtsPullsPcAndAddsBias : Prop :=
  encode .rts = [0x60] ∧
  ∀ (s : State) (sp1 sp2 : Byte),
    sp1.toNat = (s.sp.toNat + 1) % 256 → sp2.toNat = (s.sp.toNat + 2) % 256 →
    (∀ lo hi, Reads s (StackAt sp1) lo → Reads s (StackAt sp2) hi →
      exec .rts s = .next { s with
        pc := BitVec.ofNat 16 (256 * hi.toNat + lo.toNat + s.cfg.returnBias.val), sp := sp2 }) ∧
    (∀ f, PointerFaults s (StackAt sp1) (StackAt sp2) f → exec .rts s = .fault f)

/-- RTI (R193): pull P without bits 4 and 5, then PC low and high, with no bias. -/
def Obligations.RtiPullsStatusThenPc : Prop :=
  encode .rti = [0x40] ∧
  ∀ (s : State) (sp1 sp2 sp3 : Byte), sp1.toNat = (s.sp.toNat + 1) % 256 →
    sp2.toNat = (s.sp.toNat + 2) % 256 → sp3.toNat = (s.sp.toNat + 3) % 256 →
    (∀ b lo hi, Reads s (StackAt sp1) b → Reads s (StackAt sp2) lo → Reads s (StackAt sp3) hi →
      exec .rti s = .next { s with
        pc := BitVec.ofNat 16 (256 * hi.toNat + lo.toNat), sp := sp3, p := PulledP b s.p }) ∧
    (Unmapped s (StackAt sp1) → exec .rti s = .fault (.unmappedMemoryAddress (StackAt sp1))) ∧
    (∀ f, Mapped s (StackAt sp1) → PointerFaults s (StackAt sp2) (StackAt sp3) f → exec .rti s = .fault f)

/-- BRK (R194). With `BRK_MODE = vector`: PCpost + 1 and the status with bits 4 and 5 set go on the stack, I is set, PC
comes from 0xFFFE and 0xFFFF; the five accesses fault in that order. With `BRK_MODE = refuse`: the refusal. -/
def Obligations.BrkTakesTheVector : Prop :=
  encode .brk = [0x00] ∧
  (∀ s : State, s.cfg.brkMode = .refuse → exec .brk s = .refused (.brkRefused 0x00 s.pc)) ∧
  ∀ (s : State) (sp1 sp2 sp3 : Byte), s.cfg.brkMode = .vector → sp1.toNat = (s.sp.toNat + 255) % 256 →
    sp2.toNat = (s.sp.toNat + 254) % 256 → sp3.toNat = (s.sp.toNat + 253) % 256 →
    (Writable s (StackAt s.sp) → Writable s (StackAt sp1) → Writable s (StackAt sp2) →
      (∀ lo hi, Reads s 0xFFFE lo → Reads s 0xFFFF hi →
        exec .brk s = .next { s with
          pc := BitVec.ofNat 16 (256 * hi.toNat + lo.toNat)
          sp := sp3
          p := { s.p with i := true }
          mem := Memory.write
            (Memory.write
              (Memory.write s.mem (StackAt s.sp).toNat (BitVec.ofNat 8 ((s.pc + 2#16).toNat / 256)))
              (StackAt sp1).toNat (BitVec.ofNat 8 ((s.pc + 2#16).toNat % 256)))
            (StackAt sp2).toNat (PushedP s.p) }) ∧
      (∀ f, PointerFaults s 0xFFFE 0xFFFF f → exec .brk s = .fault f)) ∧
    (∀ f, WriteFaults s (StackAt s.sp) f → exec .brk s = .fault f) ∧
    (∀ f, Writable s (StackAt s.sp) → WriteFaults s (StackAt sp1) f → exec .brk s = .fault f) ∧
    (∀ f, Writable s (StackAt s.sp) → Writable s (StackAt sp1) → WriteFaults s (StackAt sp2) f →
      exec .brk s = .fault f)

/-- BRK with `BRK_MODE = refuse` (R35, R194): the step ends `Refused(0x00, pc0)` before any effect. -/
def Obligations.BrkRefusedBeforeAnyEffect : Prop :=
  ∀ s : State, s.cfg.brkMode = .refuse →
    exec .brk s = .refused (.brkRefused 0x00 s.pc) ∧
    (s.run = .running → Reads s s.pc 0x00 →
      step s = .refused (.brkRefused 0x00 s.pc) ∧
      ∀ t, Moves s t → t = { s with run := .refused 0x00 s.pc } ∨ t = { s with run := .halted })

/-- The eight branches (R195 to R203), with the relative target of R110: no flag and no memory byte changes and no
access follows Identify. -/
def Obligations.BranchesTestOneFlag : Prop :=
  (∀ b, encode (.bcc b) = [0x90, b] ∧ encode (.bcs b) = [0xB0, b] ∧ encode (.beq b) = [0xF0, b] ∧
    encode (.bne b) = [0xD0, b] ∧ encode (.bmi b) = [0x30, b] ∧ encode (.bpl b) = [0x10, b] ∧
    encode (.bvc b) = [0x50, b] ∧ encode (.bvs b) = [0x70, b]) ∧
  ∀ (b : Byte) (s : State),
    exec (.bcc b) s = .next (afterBranch s b (s.p.c == false)) ∧
    exec (.bcs b) s = .next (afterBranch s b (s.p.c == true)) ∧
    exec (.beq b) s = .next (afterBranch s b (s.p.z == true)) ∧
    exec (.bne b) s = .next (afterBranch s b (s.p.z == false)) ∧
    exec (.bmi b) s = .next (afterBranch s b (s.p.n == true)) ∧
    exec (.bpl b) s = .next (afterBranch s b (s.p.n == false)) ∧
    exec (.bvc b) s = .next (afterBranch s b (s.p.v == false)) ∧
    exec (.bvs b) s = .next (afterBranch s b (s.p.v == true))

/-! ### Flags and NOP -/

/-- The seven flag instructions and NOP (R210 to R217). -/
def Obligations.FlagInstructionsForceOneFlag : Prop :=
  encode .clc = [0x18] ∧ encode .sec = [0x38] ∧ encode .cli = [0x58] ∧ encode .sei = [0x78] ∧ encode .cld = [0xD8] ∧
  encode .sed = [0xF8] ∧ encode .clv = [0xB8] ∧ encode .nop = [0xEA] ∧
  ∀ s : State,
    exec .clc s = .next { s with pc := pcPost .clc s, p := { s.p with c := false } } ∧
    exec .sec s = .next { s with pc := pcPost .sec s, p := { s.p with c := true } } ∧
    exec .cli s = .next { s with pc := pcPost .cli s, p := { s.p with i := false } } ∧
    exec .sei s = .next { s with pc := pcPost .sei s, p := { s.p with i := true } } ∧
    exec .cld s = .next { s with pc := pcPost .cld s, p := { s.p with d := false } } ∧
    exec .sed s = .next { s with pc := pcPost .sed s, p := { s.p with d := true } } ∧
    exec .clv s = .next { s with pc := pcPost .clv s, p := { s.p with v := false } } ∧
    exec .nop s = .next { s with pc := pcPost .nop s }

/-! ### Frames over all instructions -/

/-- A, X, Y and SP are written only by the instructions R21, R22, R23 and R26 name; an instruction that does not
transfer control leaves PC at the post-fetch value (R25); no instruction writes the parameters, the run status or the
trace. -/
def Obligations.RegistersKeepUnlessNamedWriter : Prop :=
  ∀ (i : Instr) (s t : State), exec i s = .next t →
    (i.mnemonic ∉ [.LDA, .TXA, .TYA, .PLA, .AND, .ORA, .EOR, .ADC, .SBC] →
      ¬ (i.mnemonic ∈ [.ASL, .LSR, .ROL, .ROR] ∧ i.operand = .accumulator) → t.a = s.a) ∧
    (i.mnemonic ∉ [.LDX, .TAX, .TSX, .INX, .DEX] → t.x = s.x) ∧
    (i.mnemonic ∉ [.LDY, .TAY, .INY, .DEY] → t.y = s.y) ∧
    (i.mnemonic ∉ [.TXS, .PHA, .PHP, .PLA, .PLP, .JSR, .RTS, .RTI, .BRK] → t.sp = s.sp) ∧
    (i.mnemonic ∉ [.JMP, .JSR, .RTS, .RTI, .BRK, .BCC, .BCS, .BEQ, .BNE, .BMI, .BPL, .BVC, .BVS] →
      t.pc = pcPost i s) ∧
    t.cfg = s.cfg ∧ t.run = s.run ∧ t.trace = s.trace

/-- Each flag is written only by the instructions R30 and R71 name. -/
def Obligations.FlagsKeepUnlessNamedWriter : Prop :=
  ∀ (i : Instr) (s t : State), exec i s = .next t →
    (i.mnemonic ∉ [.ADC, .SBC, .CMP, .CPX, .CPY, .ASL, .LSR, .ROL, .ROR, .SEC, .CLC, .PLP, .RTI] → t.p.c = s.p.c) ∧
    (i.mnemonic ∉ [.LDA, .LDX, .LDY, .TAX, .TAY, .TXA, .TYA, .TSX, .AND, .ORA, .EOR, .INX, .DEX, .INY, .DEY, .INC,
      .DEC, .PLA, .CMP, .CPX, .CPY, .ASL, .LSR, .ROL, .ROR, .ADC, .SBC, .BIT, .PLP, .RTI] →
      t.p.z = s.p.z ∧ t.p.n = s.p.n) ∧
    (i.mnemonic ∉ [.ADC, .SBC, .BIT, .CLV, .PLP, .RTI] → t.p.v = s.p.v) ∧
    (i.mnemonic ∉ [.SEI, .CLI, .BRK, .PLP, .RTI] → t.p.i = s.p.i) ∧
    (i.mnemonic ∉ [.SED, .CLD, .PLP, .RTI] → t.p.d = s.p.d) ∧
    t.p.b4 = s.p.b4 ∧ t.p.b5 = s.p.b5

/-- Every form that stores nothing leaves every byte of memory (R44, R114). -/
def Obligations.OtherFormsLeaveMemory : Prop :=
  ∀ (i : Instr) (s t : State), exec i s = .next t →
    i.mnemonic ∉ [.STA, .STX, .STY, .PHA, .PHP, .JSR, .BRK] →
    ¬ (i.mnemonic ∈ [.INC, .DEC, .ASL, .LSR, .ROL, .ROR] ∧ i.operand ≠ .accumulator) →
    ∀ a : Addr, SameByte s t a

/-- A form that stores to its effective address leaves every other byte; the address is what the resolver answers after
the PC advance (R44, R114, R123 to R125, R160). -/
def Obligations.StoringFormsLeaveOtherBytes : Prop :=
  ∀ (i : Instr) (m : EaOperand) (s t : State) (ea : Addr), exec i s = .next t →
    i.mnemonic ∈ [.STA, .STX, .STY, .INC, .DEC, .ASL, .LSR, .ROL, .ROR] → i.operand = .ea m →
    effectiveAddr m (s.advancePc i.operand.length) = .ok ea →
    ∀ a : Addr, a ≠ ea → SameByte s t a

/-- A push leaves every byte but those it pushes, which all lie in page 1: one byte for PHA and PHP, two for JSR, three
for BRK, downward from `0x0100 + SP` with SP modulo 256 (R26, R180, R182, R188). -/
def Obligations.PushesStayInTheStackPage : Prop :=
  ∀ (i : Instr) (s t : State) (n : Nat), exec i s = .next t →
    (i.mnemonic ∈ [.PHA, .PHP] ∧ n = 1) ∨ (i.mnemonic = .JSR ∧ n = 2) ∨ (i.mnemonic = .BRK ∧ n = 3) →
    t.sp = s.sp - BitVec.ofNat 8 n ∧
    ∀ a : Addr, (∀ k < n, a ≠ StackAt (s.sp - BitVec.ofNat 8 k)) → SameByte s t a

/-! ### Whole-machine properties -/

/-- JSR then RTS: for either bias, an RTS that finds SP and the two stack bytes as the JSR left them returns to the
instruction after the JSR and restores SP (R192). -/
def Obligations.RtsReturnsAfterJsr : Prop :=
  ∀ (w : Addr) (s t u : State), exec (.jsr w) s = .next t → u.cfg = t.cfg → u.sp = t.sp →
    SameByte t u (StackAt s.sp) → SameByte t u (StackAt (s.sp - 1#8)) →
    exec .rts u = .next { u with pc := s.pc + 3#16, sp := s.sp }

/-- BRK then RTI: an RTI that finds SP and the three stack bytes as the BRK left them returns to pc0 + 2, skipping the
byte after BRK, with SP restored and P restored except bits 4 and 5 (R194, R230). -/
def Obligations.RtiReturnsAfterBrk : Prop :=
  ∀ s t u : State, exec .brk s = .next t → u.cfg = t.cfg → u.sp = t.sp →
    SameByte t u (StackAt s.sp) → SameByte t u (StackAt (s.sp - 1#8)) → SameByte t u (StackAt (s.sp - 2#8)) →
    exec .rti u = .next { u with pc := s.pc + 2#16, sp := s.sp, p := { s.p with b4 := u.p.b4, b5 := u.p.b5 } }

/-- PHP then PLP, with any flags in between and the stack byte and SP as PHP left them: P is back except bits 4 and 5,
and SP is restored (R185, R187). -/
def Obligations.PlpRestoresWhatPhpPushed : Prop :=
  ∀ s t u : State, exec .php s = .next t → u.cfg = t.cfg → u.sp = t.sp → SameByte t u (StackAt s.sp) →
    exec .plp u = .next { u with
      pc := pcPost .plp u, sp := s.sp, p := { s.p with b4 := u.p.b4, b5 := u.p.b5 } }

/-- D and I have no effect on execution: apart from PHP and BRK, which push them, no instruction's outcome depends on
either, but for D and I themselves; D does not change ADC or SBC (R30, R32, R33, R151). -/
def Obligations.DecimalAndInterruptFlagsHaveNoEffect : Prop :=
  ∀ (ins : Instr) (s : State) (d i : Bool), ins.mnemonic ∉ [.PHP, .BRK] →
    SameButDI (exec ins s) (exec ins (withDI s d i))
end

