-- ==== Sys2Proof/Laws/Decode.lean ====
section
/-! SUPPORT. Byte order, and the decode table as a whole (R46, R63, R224). -/

namespace Sys2Proof

/-- `cat(h, l)` is `h * 256 + l` (R9). -/
theorem toNat_cat (h l : Byte) : (cat h l).toNat = 256 * h.toNat + l.toNat := by
  have hl := l.isLt
  have e : (cat h l).toNat = h.toNat <<< 8 ||| l.toNat := BitVec.toNat_append h l
  rw [e, ← Nat.shiftLeft_add_eq_or_of_lt hl, Nat.shiftLeft_eq]
  omega

theorem toNat_lowByte (w : Addr) : (lowByte w).toNat = w.toNat % 256 := by
  simp [lowByte]

theorem toNat_highByte (w : Addr) : (highByte w).toNat = w.toNat / 256 := by
  have hw := w.isLt
  simp only [highByte, BitVec.extractLsb'_toNat, Nat.shiftRight_eq_div_pow]
  omega

/-- A u16 is the `cat` of its bytes (R9). -/
@[simp] theorem cat_highByte_lowByte (w : Addr) : cat (highByte w) (lowByte w) = w := by
  apply BitVec.eq_of_toNat_eq
  rw [toNat_cat, toNat_highByte, toNat_lowByte]
  omega

@[simp] theorem lowByte_cat (h l : Byte) : lowByte (cat h l) = l := by
  have hl := l.isLt
  apply BitVec.eq_of_toNat_eq
  rw [toNat_lowByte, toNat_cat]
  omega

@[simp] theorem highByte_cat (h l : Byte) : highByte (cat h l) = h := by
  have hl := l.isLt
  apply BitVec.eq_of_toNat_eq
  rw [toNat_highByte, toNat_cat]
  omega

/-- No two descriptors share an opcode (R63, R224). -/
theorem opcodeTable_opcodesDistinct : OpcodesDistinct (opcodeTable.map DecodeRow.opcode) := by
  refine List.Pairwise.imp (R := fun a b => a < b) (fun h => BitVec.ne_of_lt h) ?_
  rw [← List.isChain_iff_pairwise]
  decide +kernel

/-- The table has the 151 rows (R63). -/
theorem opcodeTable_length : opcodeTable.length = 151 := by decide +kernel

/-- The number of operand bytes is the mode's operand length (R61). -/
theorem Operand.length_bytes (o : Operand) : o.bytes.length = o.length := by
  cases o with
  | ea m => cases m <;> rfl
  | implicit => rfl
  | accumulator => rfl
  | immediate v => rfl

@[simp] theorem length_encode (i : Instr) : (encode i).length = i.length := by
  simp [encode, Instr.length, Operand.length_bytes, Nat.add_comm]

end Sys2Proof
end

