-- ==== Sys2Proof/Laws/Exec.lean ====
section
/-! SUPPORT. `exec` by mnemonic: every form of a mnemonic is the mnemonic's shared operation at the form's operand. -/

namespace Sys2Proof.Machine

theorem exec_LDA {i : Instr} {src : Source} (s : State) (hm : i.mnemonic = .LDA) (ho : i.operand = src.operand) :
    exec i s = lda src s := by
  cases i <;> first | (cases hm; done) | (cases src <;> first | (cases ho; done) | (cases ho; rfl))

theorem exec_LDX {i : Instr} {src : Source} (s : State) (hm : i.mnemonic = .LDX) (ho : i.operand = src.operand) :
    exec i s = ldx src s := by
  cases i <;> first | (cases hm; done) | (cases src <;> first | (cases ho; done) | (cases ho; rfl))

theorem exec_LDY {i : Instr} {src : Source} (s : State) (hm : i.mnemonic = .LDY) (ho : i.operand = src.operand) :
    exec i s = ldy src s := by
  cases i <;> first | (cases hm; done) | (cases src <;> first | (cases ho; done) | (cases ho; rfl))

theorem exec_AND {i : Instr} {src : Source} (s : State) (hm : i.mnemonic = .AND) (ho : i.operand = src.operand) :
    exec i s = logicAnd src s := by
  cases i <;> first | (cases hm; done) | (cases src <;> first | (cases ho; done) | (cases ho; rfl))

theorem exec_ORA {i : Instr} {src : Source} (s : State) (hm : i.mnemonic = .ORA) (ho : i.operand = src.operand) :
    exec i s = logicOra src s := by
  cases i <;> first | (cases hm; done) | (cases src <;> first | (cases ho; done) | (cases ho; rfl))

theorem exec_EOR {i : Instr} {src : Source} (s : State) (hm : i.mnemonic = .EOR) (ho : i.operand = src.operand) :
    exec i s = logicEor src s := by
  cases i <;> first | (cases hm; done) | (cases src <;> first | (cases ho; done) | (cases ho; rfl))

theorem exec_ADC {i : Instr} {src : Source} (s : State) (hm : i.mnemonic = .ADC) (ho : i.operand = src.operand) :
    exec i s = adc src s := by
  cases i <;> first | (cases hm; done) | (cases src <;> first | (cases ho; done) | (cases ho; rfl))

theorem exec_SBC {i : Instr} {src : Source} (s : State) (hm : i.mnemonic = .SBC) (ho : i.operand = src.operand) :
    exec i s = sbc src s := by
  cases i <;> first | (cases hm; done) | (cases src <;> first | (cases ho; done) | (cases ho; rfl))

theorem exec_CMP {i : Instr} {src : Source} (s : State) (hm : i.mnemonic = .CMP) (ho : i.operand = src.operand) :
    exec i s = compareA src s := by
  cases i <;> first | (cases hm; done) | (cases src <;> first | (cases ho; done) | (cases ho; rfl))

theorem exec_CPX {i : Instr} {src : Source} (s : State) (hm : i.mnemonic = .CPX) (ho : i.operand = src.operand) :
    exec i s = compareX src s := by
  cases i <;> first | (cases hm; done) | (cases src <;> first | (cases ho; done) | (cases ho; rfl))

theorem exec_CPY {i : Instr} {src : Source} (s : State) (hm : i.mnemonic = .CPY) (ho : i.operand = src.operand) :
    exec i s = compareY src s := by
  cases i <;> first | (cases hm; done) | (cases src <;> first | (cases ho; done) | (cases ho; rfl))

theorem exec_BIT {i : Instr} {src : Source} (s : State) (hm : i.mnemonic = .BIT) (ho : i.operand = src.operand) :
    exec i s = bit src s := by
  cases i <;> first | (cases hm; done) | (cases src <;> first | (cases ho; done) | (cases ho; rfl))

theorem exec_STA {i : Instr} {m : EaOperand} (s : State) (hm : i.mnemonic = .STA) (ho : i.operand = .ea m) :
    exec i s = sta m s := by
  cases i <;> first | (cases hm; done) | (cases ho; rfl)

theorem exec_STX {i : Instr} {m : EaOperand} (s : State) (hm : i.mnemonic = .STX) (ho : i.operand = .ea m) :
    exec i s = stx m s := by
  cases i <;> first | (cases hm; done) | (cases ho; rfl)

theorem exec_STY {i : Instr} {m : EaOperand} (s : State) (hm : i.mnemonic = .STY) (ho : i.operand = .ea m) :
    exec i s = sty m s := by
  cases i <;> first | (cases hm; done) | (cases ho; rfl)

theorem exec_JMP {i : Instr} {m : EaOperand} (s : State) (hm : i.mnemonic = .JMP) (ho : i.operand = .ea m) :
    exec i s = jmp m s := by
  cases i <;> first | (cases hm; done) | (cases ho; rfl)

theorem exec_INC {i : Instr} {pl : Place} (s : State) (hm : i.mnemonic = .INC) (ho : i.operand = pl.operand) :
    exec i s = inc pl s := by
  cases i <;> first | (cases hm; done) | (cases pl <;> first | (cases ho; done) | (cases ho; rfl))

theorem exec_DEC {i : Instr} {pl : Place} (s : State) (hm : i.mnemonic = .DEC) (ho : i.operand = pl.operand) :
    exec i s = dec pl s := by
  cases i <;> first | (cases hm; done) | (cases pl <;> first | (cases ho; done) | (cases ho; rfl))

theorem exec_ASL {i : Instr} {pl : Place} (s : State) (hm : i.mnemonic = .ASL) (ho : i.operand = pl.operand) :
    exec i s = asl pl s := by
  cases i <;> first | (cases hm; done) | (cases pl <;> first | (cases ho; done) | (cases ho; rfl))

theorem exec_LSR {i : Instr} {pl : Place} (s : State) (hm : i.mnemonic = .LSR) (ho : i.operand = pl.operand) :
    exec i s = lsr pl s := by
  cases i <;> first | (cases hm; done) | (cases pl <;> first | (cases ho; done) | (cases ho; rfl))

theorem exec_ROL {i : Instr} {pl : Place} (s : State) (hm : i.mnemonic = .ROL) (ho : i.operand = pl.operand) :
    exec i s = rol pl s := by
  cases i <;> first | (cases hm; done) | (cases pl <;> first | (cases ho; done) | (cases ho; rfl))

theorem exec_ROR {i : Instr} {pl : Place} (s : State) (hm : i.mnemonic = .ROR) (ho : i.operand = pl.operand) :
    exec i s = ror pl s := by
  cases i <;> first | (cases hm; done) | (cases pl <;> first | (cases ho; done) | (cases ho; rfl))

end Sys2Proof.Machine
end

