-- ==== Sys2Proof/Laws/State.lean ====
section
/-! SUPPORT. One lemma per field per register write (Machine/Ops.lean), all true by definition. -/

namespace Sys2Proof.Machine

@[simp] theorem State.setPc_cfg (s : State) (w : Addr) : (s.setPc w).cfg = s.cfg := rfl
@[simp] theorem State.setPc_pc (s : State) (w : Addr) : (s.setPc w).pc = w := rfl
@[simp] theorem State.setPc_sp (s : State) (w : Addr) : (s.setPc w).sp = s.sp := rfl
@[simp] theorem State.setPc_a (s : State) (w : Addr) : (s.setPc w).a = s.a := rfl
@[simp] theorem State.setPc_x (s : State) (w : Addr) : (s.setPc w).x = s.x := rfl
@[simp] theorem State.setPc_y (s : State) (w : Addr) : (s.setPc w).y = s.y := rfl
@[simp] theorem State.setPc_p (s : State) (w : Addr) : (s.setPc w).p = s.p := rfl
@[simp] theorem State.setPc_mem (s : State) (w : Addr) : (s.setPc w).mem = s.mem := rfl
@[simp] theorem State.setPc_run (s : State) (w : Addr) : (s.setPc w).run = s.run := rfl
@[simp] theorem State.setPc_trace (s : State) (w : Addr) : (s.setPc w).trace = s.trace := rfl

@[simp] theorem State.setSp_cfg (s : State) (v : Byte) : (s.setSp v).cfg = s.cfg := rfl
@[simp] theorem State.setSp_pc (s : State) (v : Byte) : (s.setSp v).pc = s.pc := rfl
@[simp] theorem State.setSp_sp (s : State) (v : Byte) : (s.setSp v).sp = v := rfl
@[simp] theorem State.setSp_a (s : State) (v : Byte) : (s.setSp v).a = s.a := rfl
@[simp] theorem State.setSp_x (s : State) (v : Byte) : (s.setSp v).x = s.x := rfl
@[simp] theorem State.setSp_y (s : State) (v : Byte) : (s.setSp v).y = s.y := rfl
@[simp] theorem State.setSp_p (s : State) (v : Byte) : (s.setSp v).p = s.p := rfl
@[simp] theorem State.setSp_mem (s : State) (v : Byte) : (s.setSp v).mem = s.mem := rfl
@[simp] theorem State.setSp_run (s : State) (v : Byte) : (s.setSp v).run = s.run := rfl
@[simp] theorem State.setSp_trace (s : State) (v : Byte) : (s.setSp v).trace = s.trace := rfl

@[simp] theorem State.setA_cfg (s : State) (v : Byte) : (s.setA v).cfg = s.cfg := rfl
@[simp] theorem State.setA_pc (s : State) (v : Byte) : (s.setA v).pc = s.pc := rfl
@[simp] theorem State.setA_sp (s : State) (v : Byte) : (s.setA v).sp = s.sp := rfl
@[simp] theorem State.setA_a (s : State) (v : Byte) : (s.setA v).a = v := rfl
@[simp] theorem State.setA_x (s : State) (v : Byte) : (s.setA v).x = s.x := rfl
@[simp] theorem State.setA_y (s : State) (v : Byte) : (s.setA v).y = s.y := rfl
@[simp] theorem State.setA_p (s : State) (v : Byte) : (s.setA v).p = s.p := rfl
@[simp] theorem State.setA_mem (s : State) (v : Byte) : (s.setA v).mem = s.mem := rfl
@[simp] theorem State.setA_run (s : State) (v : Byte) : (s.setA v).run = s.run := rfl
@[simp] theorem State.setA_trace (s : State) (v : Byte) : (s.setA v).trace = s.trace := rfl

@[simp] theorem State.setX_cfg (s : State) (v : Byte) : (s.setX v).cfg = s.cfg := rfl
@[simp] theorem State.setX_pc (s : State) (v : Byte) : (s.setX v).pc = s.pc := rfl
@[simp] theorem State.setX_sp (s : State) (v : Byte) : (s.setX v).sp = s.sp := rfl
@[simp] theorem State.setX_a (s : State) (v : Byte) : (s.setX v).a = s.a := rfl
@[simp] theorem State.setX_x (s : State) (v : Byte) : (s.setX v).x = v := rfl
@[simp] theorem State.setX_y (s : State) (v : Byte) : (s.setX v).y = s.y := rfl
@[simp] theorem State.setX_p (s : State) (v : Byte) : (s.setX v).p = s.p := rfl
@[simp] theorem State.setX_mem (s : State) (v : Byte) : (s.setX v).mem = s.mem := rfl
@[simp] theorem State.setX_run (s : State) (v : Byte) : (s.setX v).run = s.run := rfl
@[simp] theorem State.setX_trace (s : State) (v : Byte) : (s.setX v).trace = s.trace := rfl

@[simp] theorem State.setY_cfg (s : State) (v : Byte) : (s.setY v).cfg = s.cfg := rfl
@[simp] theorem State.setY_pc (s : State) (v : Byte) : (s.setY v).pc = s.pc := rfl
@[simp] theorem State.setY_sp (s : State) (v : Byte) : (s.setY v).sp = s.sp := rfl
@[simp] theorem State.setY_a (s : State) (v : Byte) : (s.setY v).a = s.a := rfl
@[simp] theorem State.setY_x (s : State) (v : Byte) : (s.setY v).x = s.x := rfl
@[simp] theorem State.setY_y (s : State) (v : Byte) : (s.setY v).y = v := rfl
@[simp] theorem State.setY_p (s : State) (v : Byte) : (s.setY v).p = s.p := rfl
@[simp] theorem State.setY_mem (s : State) (v : Byte) : (s.setY v).mem = s.mem := rfl
@[simp] theorem State.setY_run (s : State) (v : Byte) : (s.setY v).run = s.run := rfl
@[simp] theorem State.setY_trace (s : State) (v : Byte) : (s.setY v).trace = s.trace := rfl

@[simp] theorem State.setP_cfg (s : State) (q : Flags) : (s.setP q).cfg = s.cfg := rfl
@[simp] theorem State.setP_pc (s : State) (q : Flags) : (s.setP q).pc = s.pc := rfl
@[simp] theorem State.setP_sp (s : State) (q : Flags) : (s.setP q).sp = s.sp := rfl
@[simp] theorem State.setP_a (s : State) (q : Flags) : (s.setP q).a = s.a := rfl
@[simp] theorem State.setP_x (s : State) (q : Flags) : (s.setP q).x = s.x := rfl
@[simp] theorem State.setP_y (s : State) (q : Flags) : (s.setP q).y = s.y := rfl
@[simp] theorem State.setP_p (s : State) (q : Flags) : (s.setP q).p = q := rfl
@[simp] theorem State.setP_mem (s : State) (q : Flags) : (s.setP q).mem = s.mem := rfl
@[simp] theorem State.setP_run (s : State) (q : Flags) : (s.setP q).run = s.run := rfl
@[simp] theorem State.setP_trace (s : State) (q : Flags) : (s.setP q).trace = s.trace := rfl

@[simp] theorem State.setMem_cfg (s : State) (m : Memory) : (s.setMem m).cfg = s.cfg := rfl
@[simp] theorem State.setMem_pc (s : State) (m : Memory) : (s.setMem m).pc = s.pc := rfl
@[simp] theorem State.setMem_sp (s : State) (m : Memory) : (s.setMem m).sp = s.sp := rfl
@[simp] theorem State.setMem_a (s : State) (m : Memory) : (s.setMem m).a = s.a := rfl
@[simp] theorem State.setMem_x (s : State) (m : Memory) : (s.setMem m).x = s.x := rfl
@[simp] theorem State.setMem_y (s : State) (m : Memory) : (s.setMem m).y = s.y := rfl
@[simp] theorem State.setMem_p (s : State) (m : Memory) : (s.setMem m).p = s.p := rfl
@[simp] theorem State.setMem_mem (s : State) (m : Memory) : (s.setMem m).mem = m := rfl
@[simp] theorem State.setMem_run (s : State) (m : Memory) : (s.setMem m).run = s.run := rfl
@[simp] theorem State.setMem_trace (s : State) (m : Memory) : (s.setMem m).trace = s.trace := rfl

@[simp] theorem State.setRun_cfg (s : State) (r : RunStatus) : (s.setRun r).cfg = s.cfg := rfl
@[simp] theorem State.setRun_pc (s : State) (r : RunStatus) : (s.setRun r).pc = s.pc := rfl
@[simp] theorem State.setRun_sp (s : State) (r : RunStatus) : (s.setRun r).sp = s.sp := rfl
@[simp] theorem State.setRun_a (s : State) (r : RunStatus) : (s.setRun r).a = s.a := rfl
@[simp] theorem State.setRun_x (s : State) (r : RunStatus) : (s.setRun r).x = s.x := rfl
@[simp] theorem State.setRun_y (s : State) (r : RunStatus) : (s.setRun r).y = s.y := rfl
@[simp] theorem State.setRun_p (s : State) (r : RunStatus) : (s.setRun r).p = s.p := rfl
@[simp] theorem State.setRun_mem (s : State) (r : RunStatus) : (s.setRun r).mem = s.mem := rfl
@[simp] theorem State.setRun_run (s : State) (r : RunStatus) : (s.setRun r).run = r := rfl
@[simp] theorem State.setRun_trace (s : State) (r : RunStatus) : (s.setRun r).trace = s.trace := rfl

@[simp] theorem State.emit_cfg (s : State) (r : TraceRecord) : (s.emit r).cfg = s.cfg := rfl
@[simp] theorem State.emit_pc (s : State) (r : TraceRecord) : (s.emit r).pc = s.pc := rfl
@[simp] theorem State.emit_sp (s : State) (r : TraceRecord) : (s.emit r).sp = s.sp := rfl
@[simp] theorem State.emit_a (s : State) (r : TraceRecord) : (s.emit r).a = s.a := rfl
@[simp] theorem State.emit_x (s : State) (r : TraceRecord) : (s.emit r).x = s.x := rfl
@[simp] theorem State.emit_y (s : State) (r : TraceRecord) : (s.emit r).y = s.y := rfl
@[simp] theorem State.emit_p (s : State) (r : TraceRecord) : (s.emit r).p = s.p := rfl
@[simp] theorem State.emit_mem (s : State) (r : TraceRecord) : (s.emit r).mem = s.mem := rfl
@[simp] theorem State.emit_run (s : State) (r : TraceRecord) : (s.emit r).run = s.run := rfl
@[simp] theorem State.emit_trace (s : State) (r : TraceRecord) : (s.emit r).trace = r :: s.trace := rfl

@[simp] theorem State.advancePc_cfg (s : State) (n : Nat) : (s.advancePc n).cfg = s.cfg := rfl
@[simp] theorem State.advancePc_pc (s : State) (n : Nat) : (s.advancePc n).pc = s.pc + BitVec.ofNat 16 (1 + n) := rfl
@[simp] theorem State.advancePc_sp (s : State) (n : Nat) : (s.advancePc n).sp = s.sp := rfl
@[simp] theorem State.advancePc_a (s : State) (n : Nat) : (s.advancePc n).a = s.a := rfl
@[simp] theorem State.advancePc_x (s : State) (n : Nat) : (s.advancePc n).x = s.x := rfl
@[simp] theorem State.advancePc_y (s : State) (n : Nat) : (s.advancePc n).y = s.y := rfl
@[simp] theorem State.advancePc_p (s : State) (n : Nat) : (s.advancePc n).p = s.p := rfl
@[simp] theorem State.advancePc_mem (s : State) (n : Nat) : (s.advancePc n).mem = s.mem := rfl
@[simp] theorem State.advancePc_run (s : State) (n : Nat) : (s.advancePc n).run = s.run := rfl
@[simp] theorem State.advancePc_trace (s : State) (n : Nat) : (s.advancePc n).trace = s.trace := rfl

end Sys2Proof.Machine
end

