-- ==== Sys2Proof/Laws/Memory.lean ====
section
/-! SUPPORT. Laws of the memory cells (R43, R44, R50) and of the two bus operations (R41, R42). -/

namespace Sys2Proof.Machine

/-! ### Cells -/

theorem Memory.read_insert_same (m : Memory) (a : Nat) (v : Byte) : Memory.read (Memory.insert m a v) a = v := by
  induction m with
  | nil => simp [Memory.insert, Memory.read]
  | cons c m ih =>
    obtain ⟨k, u⟩ := c
    simp only [Memory.insert]
    split
    · simp [Memory.read]
    · split
      · simp [Memory.read]
      · rename_i hne
        simp [Memory.read, hne, ih]

theorem Memory.read_insert_other (m : Memory) {a b : Nat} (v : Byte) (h : b ≠ a) :
    Memory.read (Memory.insert m a v) b = Memory.read m b := by
  induction m with
  | nil => simp [Memory.insert, Memory.read, h]
  | cons c m ih =>
    obtain ⟨k, u⟩ := c
    simp only [Memory.insert]
    split
    · simp [Memory.read, h]
    · split
      · rename_i hak
        subst hak
        simp [Memory.read, h]
      · simp only [Memory.read, ih]

theorem Memory.read_erase (m : Memory) (a b : Nat) :
    Memory.read (Memory.erase m a) b = if b = a then Memory.blank else Memory.read m b := by
  induction m with
  | nil => simp [Memory.erase, Memory.read]
  | cons c m ih =>
    obtain ⟨k, u⟩ := c
    by_cases hk : k = a
    · subst hk
      simp only [Memory.erase, List.filter_cons, bne_self_eq_false, Bool.false_eq_true, if_false, Memory.read] at ih ⊢
      rw [ih]
      split <;> rfl
    · have hcons : Memory.erase ((k, u) :: m) a = (k, u) :: Memory.erase m a := by
        simp [Memory.erase, hk]
      rw [hcons, Memory.read, Memory.read, ih]
      by_cases hb : b = k
      · subst hb
        simp [hk]
      · simp [hb]

/-- A byte reads as it was written (R43, R50). -/
theorem Memory.read_write_same (m : Memory) (a : Nat) (v : Byte) : Memory.read (Memory.write m a v) a = v := by
  unfold Memory.write
  split
  · simp [Memory.read_erase, *]
  · exact Memory.read_insert_same m a v

/-- A write leaves every other address (R44). -/
theorem Memory.read_write_other (m : Memory) {a b : Nat} (v : Byte) (h : b ≠ a) :
    Memory.read (Memory.write m a v) b = Memory.read m b := by
  unfold Memory.write
  split
  · simp [Memory.read_erase, h]
  · exact Memory.read_insert_other m v h

theorem Memory.mem_insert {m : Memory} {a : Nat} {v : Byte} {c : Host.Cell} (h : c ∈ Memory.insert m a v) :
    c ∈ m ∨ c = (a, v) := by
  induction m with
  | nil => exact .inr (by simpa [Memory.insert] using h)
  | cons d m ih =>
    obtain ⟨k, u⟩ := d
    simp only [Memory.insert] at h
    split at h
    · exact (List.mem_cons.1 h).symm
    · split at h
      · exact (List.mem_cons.1 h).elim .inr fun h => .inl (List.mem_cons_of_mem _ h)
      · rcases List.mem_cons.1 h with rfl | h
        · exact .inl (by simp)
        · exact (ih h).imp_left (List.mem_cons_of_mem _)

/-- Every cell after a write is an old cell or the written one. -/
theorem Memory.mem_write {m : Memory} {a : Nat} {v : Byte} {c : Host.Cell} (h : c ∈ Memory.write m a v) :
    c ∈ m ∨ (c = (a, v) ∧ v ≠ Memory.blank) := by
  unfold Memory.write at h
  split at h
  · exact .inl (List.mem_filter.1 h).1
  · exact (Memory.mem_insert h).imp_right fun e => ⟨e, ‹_›⟩

theorem Memory.sorted_insert {m : Memory} (hp : m.Pairwise fun c d => c.1 < d.1) (a : Nat) (v : Byte) :
    (Memory.insert m a v).Pairwise fun c d => c.1 < d.1 := by
  induction m with
  | nil => simp [Memory.insert]
  | cons d m ih =>
    obtain ⟨k, u⟩ := d
    obtain ⟨hlt, hm⟩ := List.pairwise_cons.1 hp
    simp only [Memory.insert]
    split
    · rename_i hak
      refine List.pairwise_cons.2 ⟨fun c hc => ?_, hp⟩
      rcases List.mem_cons.1 hc with rfl | hc
      · exact hak
      · exact Nat.lt_trans hak (hlt c hc)
    · split
      · rename_i hak
        subst hak
        exact List.pairwise_cons.2 ⟨hlt, hm⟩
      · rename_i h1 h2
        refine List.pairwise_cons.2 ⟨fun c hc => ?_, ih hm⟩
        rcases Memory.mem_insert hc with hc | rfl
        · exact hlt c hc
        · show k < a
          omega

/-- A write inside the address space keeps the canonical form. -/
theorem Memory.wf_write {m : Memory} (hm : Memory.wf m) {a : Nat} (ha : a < 65536) (v : Byte) :
    Memory.wf (Memory.write m a v) := by
  refine ⟨?_, fun c hc => ?_⟩
  · unfold Memory.write
    split
    · exact List.Pairwise.filter _ hm.1
    · exact Memory.sorted_insert hm.1 a v
  · rcases Memory.mem_write hc with hc | ⟨rfl, hv⟩
    · exact hm.2 c hc
    · exact ⟨ha, hv⟩

/-! ### Bus -/

theorem memRead_ok_iff {s : State} {a : Addr} {v : Byte} : memRead s a = .ok v ↔ Reads s a v := by
  unfold memRead Reads Mapped
  cases h : ownerOf s.cfg a <;> simp

theorem memRead_error_iff {s : State} {a : Addr} {f : Fault} :
    memRead s a = .error f ↔ Unmapped s a ∧ f = .unmappedMemoryAddress a := by
  unfold memRead Unmapped
  cases h : ownerOf s.cfg a <;> simp [eq_comm]

theorem memRead_mapped {s : State} {a : Addr} (h : Mapped s a) : memRead s a = .ok (Memory.read s.mem a.toNat) :=
  memRead_ok_iff.2 ⟨h, rfl⟩

/-- Everything a bus write can do when it completes (R41, R44). -/
theorem memWrite_ok_iff {s t : State} {a : Addr} {v : Byte} :
    memWrite s a v = .ok t ↔ Writable s a ∧ t = s.setMem (Memory.write s.mem a.toNat v) := by
  unfold memWrite Writable
  cases h : ownerOf s.cfg a with
  | none => simp
  | some o =>
    by_cases hk : o.kind = .rom
    · simp [hk]
    · simpa [hk] using eq_comm

theorem memWrite_error_iff {s : State} {a : Addr} {v : Byte} {f : Fault} :
    memWrite s a v = .error f ↔ WriteFaults s a f := by
  unfold memWrite WriteFaults Unmapped InRom
  cases h : ownerOf s.cfg a with
  | none => simpa using eq_comm
  | some o =>
    by_cases hk : o.kind = .rom
    · simpa [hk] using eq_comm
    · simp [hk]

theorem Writable.mapped {s : State} {a : Addr} (h : Writable s a) : Mapped s a :=
  h.elim fun o ho => ⟨o, ho.1⟩

theorem not_mapped_iff {s : State} {a : Addr} : ¬ Mapped s a ↔ Unmapped s a := by
  unfold Mapped Unmapped
  cases h : ownerOf s.cfg a <;> simp

/-- A write leaves the byte at every other address, read through the bus (R44). -/
theorem memRead_setMem_other (s : State) {a b : Addr} (v : Byte) (h : b ≠ a) :
    memRead (s.setMem (Memory.write s.mem a.toNat v)) b = memRead s b := by
  have hn : b.toNat ≠ a.toNat := fun e => h (BitVec.eq_of_toNat_eq e)
  simp [memRead, Memory.read_write_other _ _ hn]

/-- The owner the bus finds is listed and covers the address (R42). -/
theorem ownerOf_covers {cfg : Config} {a : Addr} {o : Owner} (h : ownerOf cfg a = some o) :
    o ∈ cfg.owners ∧ o.start ≤ a ∧ a ≤ o.stop := by
  unfold ownerOf at h
  have h1 := List.mem_of_find?_eq_some h
  have h2 := List.find?_some h
  simp only [Owner.covers, Bool.and_eq_true, decide_eq_true_eq] at h2
  exact ⟨h1, h2⟩

end Sys2Proof.Machine
end

