-- ==== Sys2Proof/Laws/Operands.lean ====
section
/-! SUPPORT. What the resolver, the stack operations and the instruction frame can do: one lemma for each, which a proof
cites instead of unfolding it (spec/41, spec/45, R80 to R85). -/

namespace Sys2Proof.Machine

/-! ### Sequencing -/

theorem bind_eq_ok_iff {α β : Type} {x : Except Fault α} {f : α → Except Fault β} {b : β} :
    (x >>= f) = .ok b ↔ ∃ a, x = .ok a ∧ f a = .ok b := by
  cases x <;> simp [bind, Except.bind]

theorem bind_eq_error_iff {α β : Type} {x : Except Fault α} {f : α → Except Fault β} {e : Fault} :
    (x >>= f) = .error e ↔ x = .error e ∨ ∃ a, x = .ok a ∧ f a = .error e := by
  cases x <;> simp [bind, Except.bind]

theorem pure_eq_ok_iff {α : Type} {a b : α} : (pure a : Except Fault α) = .ok b ↔ a = b := by
  simp [pure, Except.pure]

theorem pure_ne_error {α : Type} {a : α} {e : Fault} : (pure a : Except Fault α) ≠ .error e := by
  simp [pure, Except.pure]

/-! ### Addresses -/

theorem zext16_eq (b : Byte) : zext16 b = BitVec.ofNat 16 b.toNat := by
  apply BitVec.eq_of_toNat_eq
  simp [zext16]

/-- The stack address is `0x0100 + SP` (R26). -/
theorem stackAddr_eq (sp : Byte) : stackAddr sp = StackAt sp := by
  apply BitVec.eq_of_toNat_eq
  simp [stackAddr, StackAt, zext16]

theorem toNat_StackAt (sp : Byte) : (StackAt sp).toNat = 256 + sp.toNat := by
  have h := sp.isLt
  simp only [StackAt, BitVec.toNat_ofNat]
  omega

/-- Different stack pointers designate different bytes. -/
theorem StackAt_inj {a b : Byte} : StackAt a = StackAt b ↔ a = b := by
  refine ⟨fun h => BitVec.eq_of_toNat_eq ?_, fun h => h ▸ rfl⟩
  have := congrArg BitVec.toNat h
  simp only [toNat_StackAt] at this
  omega

theorem cat_eq_ofNat (h l : Byte) : cat h l = BitVec.ofNat 16 (256 * h.toNat + l.toNat) := by
  have hh := h.isLt
  have hl := l.isLt
  apply BitVec.eq_of_toNat_eq
  rw [toNat_cat, BitVec.toNat_ofNat]
  omega

/-- The pointer's high byte stays in the pointer's page (R111). -/
theorem pageHighAddr_eq (ptr : Addr) : pageHighAddr ptr = JmpHigh ptr := by
  have hp := ptr.isLt
  have h1 : (1#16).toNat = 1 := rfl
  have hF : (0xFF#16).toNat = 255 := rfl
  have hi : (ptr &&& 0xFF00#16) = (ptr >>> 8) <<< 8 := by
    have hb : ∀ k < 16, (0xFF00#16).getLsbD k = !decide (k < 8) := by decide
    apply BitVec.eq_of_getLsbD_eq
    intro k hk
    by_cases h8 : k < 8
    · simp [hb k hk, h8]
    · simp [hb k hk, h8, hk, show 8 + (k - 8) = k by omega]
  have hlo : ((ptr + 1#16) &&& 0x00FF#16).toNat = (ptr.toNat + 1) % 256 := by
    have e : ((ptr + 1#16) &&& 0x00FF#16).toNat = (ptr + 1#16).toNat &&& (2 ^ 8 - 1) := BitVec.toNat_and ..
    rw [e, Nat.and_two_pow_sub_one_eq_mod, BitVec.toNat_add, h1]
    omega
  have hh : ((ptr >>> 8) <<< 8).toNat = (ptr.toNat / 256) <<< 8 := by
    simp only [BitVec.toNat_shiftLeft, BitVec.toNat_ushiftRight, Nat.shiftLeft_eq, Nat.shiftRight_eq_div_pow]
    omega
  apply BitVec.eq_of_toNat_eq
  rw [pageHighAddr, hi, BitVec.toNat_or, hh, hlo, ← Nat.shiftLeft_add_eq_or_of_lt (by omega), Nat.shiftLeft_eq, JmpHigh]
  split <;> simp only [BitVec.toNat_sub, BitVec.toNat_add, h1, hF] <;> omega

theorem zpHighAddr_eq (s : State) (p : Byte) : zpHighAddr s p = ZpHigh s p := by
  have h := p.isLt
  unfold zpHighAddr ZpHigh
  split <;> apply BitVec.eq_of_toNat_eq <;> simp [zext16]

/-! ### The resolver -/

/-- Reading a pointer (R111 to R113): low byte first. -/
theorem readPointer_ok_iff {s : State} {lo hi w : Addr} : readPointer s lo hi = .ok w ↔ PointerIs s lo hi w := by
  simp only [readPointer, bind_eq_ok_iff, pure_eq_ok_iff, memRead_ok_iff, PointerIs, cat_eq_ofNat]
  exact ⟨fun ⟨l, hl, h, hh, e⟩ => ⟨l, h, hl, hh, e.symm⟩, fun ⟨l, h, hl, hh, e⟩ => ⟨l, hl, h, hh, e.symm⟩⟩

theorem readPointer_error_iff {s : State} {lo hi : Addr} {f : Fault} :
    readPointer s lo hi = .error f ↔ PointerFaults s lo hi f := by
  simp only [readPointer, bind_eq_error_iff, memRead_error_iff, memRead_ok_iff, PointerFaults, pure_ne_error]
  constructor
  · rintro (h | ⟨l, ⟨hl, -⟩, h | ⟨-, -, h⟩⟩)
    · exact .inl h
    · exact .inr ⟨hl, h⟩
    · exact h.elim
  · rintro (h | ⟨hl, h⟩)
    · exact .inl h
    · exact .inr ⟨_, ⟨hl, rfl⟩, .inl h⟩

/-- Resolving depends on PC in the Relative mode only (R100, R110). -/
theorem effectiveAddr_setPc {m : EaOperand} (hm : m.mode ≠ .relative) (s : State) (w : Addr) :
    effectiveAddr m (s.setPc w) = effectiveAddr m s := by
  cases m <;> first | rfl | exact absurd rfl hm

theorem EaIs_setPc {m : EaOperand} (hm : m.mode ≠ .relative) (s : State) (w ea : Addr) :
    EaIs m (s.setPc w) ea ↔ EaIs m s ea := by
  cases m <;> first | rfl | exact absurd rfl hm

/-! ### The stack -/

/-- Everything a push can do when it completes (R180). -/
theorem push_ok_iff {v : Byte} {s t : State} :
    push v s = .ok t ↔ Writable s (StackAt s.sp) ∧
      t = (s.setMem (Memory.write s.mem (StackAt s.sp).toNat v)).setSp (s.sp - 1#8) := by
  simp only [push, bind_eq_ok_iff, pure_eq_ok_iff, memWrite_ok_iff, stackAddr_eq]
  constructor
  · rintro ⟨t1, ⟨hw, rfl⟩, rfl⟩
    exact ⟨hw, rfl⟩
  · rintro ⟨hw, rfl⟩
    exact ⟨_, ⟨hw, rfl⟩, rfl⟩

theorem push_error_iff {v : Byte} {s : State} {f : Fault} :
    push v s = .error f ↔ WriteFaults s (StackAt s.sp) f := by
  simp only [push, bind_eq_error_iff, pure_ne_error, memWrite_error_iff, stackAddr_eq, and_false, exists_false, or_false]

/-- Everything a pull can do when it completes (R181). -/
theorem pull_ok_iff {s t : State} {v : Byte} :
    pull s = .ok (v, t) ↔ Reads s (StackAt (s.sp + 1#8)) v ∧ t = s.setSp (s.sp + 1#8) := by
  simp only [pull, bind_eq_ok_iff, pure_eq_ok_iff, memRead_ok_iff, stackAddr_eq, Prod.mk.injEq]
  constructor
  · rintro ⟨_, h, rfl, rfl⟩
    exact ⟨h, rfl⟩
  · rintro ⟨h, rfl⟩
    exact ⟨_, h, rfl, rfl⟩

theorem pull_error_iff {s : State} {f : Fault} :
    pull s = .error f ↔ Unmapped s (StackAt (s.sp + 1#8)) ∧ f = .unmappedMemoryAddress (StackAt (s.sp + 1#8)) := by
  simp only [pull, bind_eq_error_iff, pure_ne_error, memRead_error_iff, stackAddr_eq, and_false, exists_false, or_false]
  rfl

/-- Everything a 16-bit push can do when it completes (R182): the high byte, then the low byte, in two bytes of
page 1. -/
theorem push16_ok_iff {w : Addr} {s t : State} :
    push16 w s = .ok t ↔ Writable s (StackAt s.sp) ∧ Writable s (StackAt (s.sp - 1#8)) ∧
      t = (s.setMem (Memory.write (Memory.write s.mem (StackAt s.sp).toNat (highByte w))
        (StackAt (s.sp - 1#8)).toNat (lowByte w))).setSp (s.sp - 1#8 - 1#8) := by
  simp only [push16, bind_eq_ok_iff, push_ok_iff]
  constructor
  · rintro ⟨t1, ⟨h1, rfl⟩, h2, rfl⟩
    exact ⟨h1, h2, rfl⟩
  · rintro ⟨h1, h2, rfl⟩
    exact ⟨_, ⟨h1, rfl⟩, h2, rfl⟩

theorem push16_error_iff {w : Addr} {s : State} {f : Fault} :
    push16 w s = .error f ↔ WriteFaults s (StackAt s.sp) f ∨
      (Writable s (StackAt s.sp) ∧ WriteFaults s (StackAt (s.sp - 1#8)) f) := by
  simp only [push16, bind_eq_error_iff, push_ok_iff, push_error_iff]
  refine or_congr_right ⟨?_, ?_⟩
  · rintro ⟨t1, ⟨h1, rfl⟩, h2⟩
    exact ⟨h1, h2⟩
  · rintro ⟨h1, h2⟩
    exact ⟨_, ⟨h1, rfl⟩, h2⟩

/-- Everything a 16-bit pull can do when it completes (R183). -/
theorem pull16_ok_iff {s t : State} {w : Addr} :
    pull16 s = .ok (w, t) ↔ PointerIs s (StackAt (s.sp + 1#8)) (StackAt (s.sp + 1#8 + 1#8)) w ∧
      t = s.setSp (s.sp + 1#8 + 1#8) := by
  simp only [pull16, bind_eq_ok_iff, pure_eq_ok_iff, Prod.exists, pull_ok_iff, Prod.mk.injEq, PointerIs, cat_eq_ofNat]
  constructor
  · rintro ⟨l, t1, ⟨hl, rfl⟩, h, t2, ⟨hh, rfl⟩, rfl, rfl⟩
    exact ⟨⟨l, h, hl, hh, rfl⟩, rfl⟩
  · rintro ⟨⟨l, h, hl, hh, rfl⟩, rfl⟩
    exact ⟨l, _, ⟨hl, rfl⟩, h, _, ⟨hh, rfl⟩, rfl, rfl⟩

theorem pull16_error_iff {s : State} {f : Fault} :
    pull16 s = .error f ↔ PointerFaults s (StackAt (s.sp + 1#8)) (StackAt (s.sp + 1#8 + 1#8)) f := by
  simp only [pull16, bind_eq_error_iff, pure_ne_error, Prod.exists, pull_ok_iff, pull_error_iff, and_false, exists_false,
    or_false, PointerFaults]
  refine or_congr_right ⟨?_, ?_⟩
  · rintro ⟨l, t1, ⟨hl, rfl⟩, h⟩
    exact ⟨hl.1, h⟩
  · rintro ⟨hm, h⟩
    exact ⟨_, _, ⟨⟨hm, rfl⟩, rfl⟩, h⟩

/-! ### The software trap and the return from it -/

/-- The memory after the three pushes of a BRK from `s` (R194). -/
def breakStack (s : State) : Memory :=
  Memory.write
    (Memory.write (Memory.write s.mem (StackAt s.sp).toNat (highByte (s.pc + 1#16)))
      (StackAt (s.sp - 1#8)).toNat (lowByte (s.pc + 1#16)))
    (StackAt (s.sp - 1#8 - 1#8)).toNat s.p.pushed

/-- The state of a BRK from `s` after its pushes and the flag write. -/
def breakPushed (s : State) : State :=
  { s with sp := s.sp - 1#8 - 1#8 - 1#8, p := { s.p with i := true }, mem := breakStack s }

/-- The stack page lies below the vector, so the pushes leave the vector's bytes (R26, R194). -/
theorem reads_breakPushed (s : State) {a : Addr} (ha : 512 ≤ a.toNat) (b : Byte) :
    Reads (breakPushed s) a b ↔ Reads s a b := by
  have hn : ∀ sp, a.toNat ≠ (StackAt sp).toNat := fun sp => by
    have := sp.isLt
    rw [toNat_StackAt]
    omega
  simp only [Reads, Mapped, breakPushed, breakStack, Memory.read_write_other _ _ (hn _)]

/-- Everything the trap entry can do when it completes, on the state after the PC advance (R194, R229). -/
theorem enterBreak_ok_iff {s t : State} :
    enterBreak s = .ok t ↔ Writable s (StackAt s.sp) ∧ Writable s (StackAt (s.sp - 1#8)) ∧
      Writable s (StackAt (s.sp - 1#8 - 1#8)) ∧ ∃ w, PointerIs s 0xFFFE#16 0xFFFF#16 w ∧
        t = (breakPushed s).setPc w := by
  simp only [enterBreak, bind_eq_ok_iff, pure_eq_ok_iff, push16_ok_iff, push_ok_iff, memRead_ok_iff]
  constructor
  · rintro ⟨_, ⟨h1, h2, rfl⟩, _, ⟨h3, rfl⟩, lo, hl, hi, hh, rfl⟩
    exact ⟨h1, h2, h3, _, ⟨lo, hi, (reads_breakPushed s (by decide) lo).1 hl,
      (reads_breakPushed s (by decide) hi).1 hh, cat_eq_ofNat hi lo⟩, rfl⟩
  · rintro ⟨h1, h2, h3, w, ⟨lo, hi, hl, hh, rfl⟩, rfl⟩
    refine ⟨_, ⟨h1, h2, rfl⟩, _, ⟨h3, rfl⟩, lo, (reads_breakPushed s (by decide) lo).2 hl, hi,
      (reads_breakPushed s (by decide) hi).2 hh, ?_⟩
    rw [cat_eq_ofNat]
    rfl

/-- The trap entry faults at the first of its accesses that fails (R194, R228). -/
theorem enterBreak_error_iff {s : State} {f : Fault} :
    enterBreak s = .error f ↔ WriteFaults s (StackAt s.sp) f ∨
      (Writable s (StackAt s.sp) ∧ WriteFaults s (StackAt (s.sp - 1#8)) f) ∨
      (Writable s (StackAt s.sp) ∧ Writable s (StackAt (s.sp - 1#8)) ∧ WriteFaults s (StackAt (s.sp - 1#8 - 1#8)) f) ∨
      (Writable s (StackAt s.sp) ∧ Writable s (StackAt (s.sp - 1#8)) ∧ Writable s (StackAt (s.sp - 1#8 - 1#8)) ∧
        PointerFaults s 0xFFFE#16 0xFFFF#16 f) := by
  simp only [enterBreak, bind_eq_error_iff, pure_ne_error, push16_error_iff, push16_ok_iff, push_error_iff, push_ok_iff,
    memRead_error_iff, memRead_ok_iff, and_false, exists_false, or_false]
  constructor
  · rintro ((h | h) | ⟨_, ⟨h1, h2, rfl⟩, h | ⟨_, ⟨h3, rfl⟩, h | ⟨lo, hl, h⟩⟩⟩)
    · exact .inl h
    · exact .inr (.inl h)
    · exact .inr (.inr (.inl ⟨h1, h2, h⟩))
    · exact .inr (.inr (.inr ⟨h1, h2, h3, .inl h⟩))
    · exact .inr (.inr (.inr ⟨h1, h2, h3, .inr ⟨hl.1, h⟩⟩))
  · rintro (h | h | ⟨h1, h2, h⟩ | ⟨h1, h2, h3, h | ⟨hm, h⟩⟩)
    · exact .inl (.inl h)
    · exact .inl (.inr h)
    · exact .inr ⟨_, ⟨h1, h2, rfl⟩, .inl h⟩
    · exact .inr ⟨_, ⟨h1, h2, rfl⟩, .inr ⟨_, ⟨h3, rfl⟩, .inl h⟩⟩
    · exact .inr ⟨_, ⟨h1, h2, rfl⟩, .inr ⟨_, ⟨h3, rfl⟩, .inr ⟨_, ⟨hm, rfl⟩, h⟩⟩⟩

/-- Everything the return can do when it completes (R193, R230): three pulls, in this order. -/
theorem returnFromBreak_ok_iff {s t : State} :
    returnFromBreak s = .ok t ↔ ∃ b w, Reads s (StackAt (s.sp + 1#8)) b ∧
      PointerIs s (StackAt (s.sp + 1#8 + 1#8)) (StackAt (s.sp + 1#8 + 1#8 + 1#8)) w ∧
      t = { s with pc := w, sp := s.sp + 1#8 + 1#8 + 1#8, p := PulledP b s.p } := by
  simp only [returnFromBreak, bind_eq_ok_iff, pure_eq_ok_iff, Prod.exists, pull_ok_iff, pull16_ok_iff]
  constructor
  · rintro ⟨b, _, ⟨hb, rfl⟩, w, _, ⟨hw, rfl⟩, rfl⟩
    exact ⟨b, w, hb, hw, rfl⟩
  · rintro ⟨b, w, hb, hw, rfl⟩
    exact ⟨b, _, ⟨hb, rfl⟩, w, _, ⟨hw, rfl⟩, rfl⟩

theorem returnFromBreak_error_iff {s : State} {f : Fault} :
    returnFromBreak s = .error f ↔
      (Unmapped s (StackAt (s.sp + 1#8)) ∧ f = .unmappedMemoryAddress (StackAt (s.sp + 1#8))) ∨
      (Mapped s (StackAt (s.sp + 1#8)) ∧
        PointerFaults s (StackAt (s.sp + 1#8 + 1#8)) (StackAt (s.sp + 1#8 + 1#8 + 1#8)) f) := by
  simp only [returnFromBreak, bind_eq_error_iff, pure_ne_error, Prod.exists, pull_ok_iff, pull_error_iff, pull16_error_iff,
    and_false, exists_false, or_false]
  refine or_congr_right ⟨?_, ?_⟩
  · rintro ⟨b, _, ⟨hb, rfl⟩, h⟩
    exact ⟨hb.1, h⟩
  · rintro ⟨hm, h⟩
    exact ⟨_, _, ⟨⟨hm, rfl⟩, rfl⟩, h⟩

/-! ### The frame of an instruction -/

@[simp] theorem Flags.update_none (d : DeclaredFlags) (p : Flags) : p.update d none = p := rfl

/-- With N and Z declared, the generic update is `NZ(res)` (R85). -/
theorem Flags.update_some_nz {d : DeclaredFlags} (hn : d.n = true) (hz : d.z = true) (p : Flags) (r : Byte) :
    p.update d (some r) = p.withNZ r := by
  have e1 : (r == 0#8) = decide (r.toNat = 0) := by
    rw [Bool.eq_iff_iff]
    simp [BitVec.toNat_eq]
  have e2 : r.getLsbD 7 = decide (r.toNat ≥ 128) := by
    revert r
    decide
  simp only [Flags.update, Flags.withNZ, hn, hz, e1, e2, if_true]

/-- The PC advance ends at `PCpost` (R82). -/
theorem advancePc_eq (i : Instr) (s : State) : s.advancePc i.operand.length = s.setPc (pcPost i s) := by
  simp only [State.advancePc, pcPost, Instr.length]
  congr 1
  apply BitVec.eq_of_toNat_eq
  simp

/-- An instruction completes exactly when its semantics does, on the state after the PC advance (R80). -/
theorem execute_next_iff {m : Mnemonic} {o : Operand} {sem : State → Effect} {s u : State} :
    execute m o sem s = .next u ↔ ∃ t res, sem (s.advancePc o.length) = .ok (t, res) ∧
      u = t.setP (t.p.update m.declaredFlags res) := by
  unfold execute
  cases h : sem (s.advancePc o.length) with
  | error f => simp
  | ok r =>
    obtain ⟨t, res⟩ := r
    constructor
    · intro h
      exact ⟨t, res, rfl, (Host.Outcome.next.inj h).symm⟩
    · rintro ⟨_, _, h, rfl⟩
      cases h
      rfl

/-- An instruction faults exactly when its semantics does (R88). -/
theorem execute_fault_iff {m : Mnemonic} {o : Operand} {sem : State → Effect} {s : State} {f : Fault} :
    execute m o sem s = .fault f ↔ sem (s.advancePc o.length) = .error f := by
  unfold execute
  cases h : sem (s.advancePc o.length) <;> simp

theorem reading_ok {src : Source} {e : Byte → State → State × Option Byte} {s : State} {v : Byte}
    (h : src.getData s = .ok v) : reading src e s = .ok (e v s) := by
  simp [reading, h, bind, Except.bind, pure, Except.pure]

theorem reading_error_iff {src : Source} {e : Byte → State → State × Option Byte} {s : State} {f : Fault} :
    reading src e s = .error f ↔ src.getData s = .error f := by
  simp only [reading, bind_eq_error_iff, pure_ne_error, and_false, exists_false, or_false]

/-- Everything a read-modify-write can do on memory when it completes (R160). -/
theorem modifying_ea_ok_iff {m : EaOperand} {alu : Byte → Flags → Byte × Flags} {s t : State} {res : Option Byte} :
    modifying (.ea m) alu s = .ok (t, res) ↔
      ∃ ea v, effectiveAddr m s = .ok ea ∧ Reads s ea v ∧ Writable s ea ∧
        t = (s.setP (alu v s.p).2).setMem (Memory.write s.mem ea.toNat (alu v s.p).1) ∧ res = some (alu v s.p).1 := by
  simp only [modifying, Place.resolve, bind_eq_ok_iff, pure_eq_ok_iff, Prod.mk.injEq]
  constructor
  · rintro ⟨_, ⟨ea, he, rfl⟩, v, hv, t1, ht, rfl, rfl⟩
    obtain ⟨hw, rfl⟩ := memWrite_ok_iff.1 ht
    exact ⟨ea, v, he, memRead_ok_iff.1 hv, hw, rfl, rfl⟩
  · rintro ⟨ea, v, he, hv, hw, rfl, rfl⟩
    exact ⟨_, ⟨ea, he, rfl⟩, v, memRead_ok_iff.2 hv, _, memWrite_ok_iff.2 ⟨hw, rfl⟩, rfl, rfl⟩

/-- A read-modify-write on the accumulator always completes (R114). -/
theorem modifying_accumulator (alu : Byte → Flags → Byte × Flags) (s : State) :
    modifying .accumulator alu s = .ok ((s.setP (alu s.a s.p).2).setA (alu s.a s.p).1, some (alu s.a s.p).1) := rfl

end Sys2Proof.Machine
end

