-- ==== Sys2Proof/Laws/PerInstr.lean ====
section
/-! SUPPORT. For every instruction: the decode table has one row for its opcode, with its mnemonic and mode (R63, R67). -/

namespace Sys2Proof.Laws

/-- The decode table has a row for the opcode of `i`, with the mnemonic and the mode of `i`, and the row makes `i` of the
operand bytes of `i`, whatever bytes follow them. -/
def TableRow.Statement (i : Instr) : Prop :=
  ∃ row, lookup i.opcode = some row ∧ row.mnemonic = i.mnemonic ∧ row.mode = i.operand.mode ∧
    ∀ rest, row.instr (i.operand.bytes ++ rest) = i

theorem TableRow.ldaImmediate (value : Byte) : TableRow.Statement (.ldaImmediate value) := ⟨_, rfl, rfl, rfl, fun _ => rfl⟩
theorem TableRow.ldaZeroPage (base : Byte) : TableRow.Statement (.ldaZeroPage base) := ⟨_, rfl, rfl, rfl, fun _ => rfl⟩
theorem TableRow.ldaZeroPageX (base : Byte) : TableRow.Statement (.ldaZeroPageX base) := ⟨_, rfl, rfl, rfl, fun _ => rfl⟩
theorem TableRow.ldaAbsolute (base : Addr) : TableRow.Statement (.ldaAbsolute base) := ⟨_, rfl, rfl, rfl, fun _ => congrArg _ (cat_highByte_lowByte base)⟩
theorem TableRow.ldaAbsoluteX (base : Addr) : TableRow.Statement (.ldaAbsoluteX base) := ⟨_, rfl, rfl, rfl, fun _ => congrArg _ (cat_highByte_lowByte base)⟩
theorem TableRow.ldaAbsoluteY (base : Addr) : TableRow.Statement (.ldaAbsoluteY base) := ⟨_, rfl, rfl, rfl, fun _ => congrArg _ (cat_highByte_lowByte base)⟩
theorem TableRow.ldaIndexedIndirect (base : Byte) : TableRow.Statement (.ldaIndexedIndirect base) := ⟨_, rfl, rfl, rfl, fun _ => rfl⟩
theorem TableRow.ldaIndirectIndexed (base : Byte) : TableRow.Statement (.ldaIndirectIndexed base) := ⟨_, rfl, rfl, rfl, fun _ => rfl⟩
theorem TableRow.ldxImmediate (value : Byte) : TableRow.Statement (.ldxImmediate value) := ⟨_, rfl, rfl, rfl, fun _ => rfl⟩
theorem TableRow.ldxZeroPage (base : Byte) : TableRow.Statement (.ldxZeroPage base) := ⟨_, rfl, rfl, rfl, fun _ => rfl⟩
theorem TableRow.ldxZeroPageY (base : Byte) : TableRow.Statement (.ldxZeroPageY base) := ⟨_, rfl, rfl, rfl, fun _ => rfl⟩
theorem TableRow.ldxAbsolute (base : Addr) : TableRow.Statement (.ldxAbsolute base) := ⟨_, rfl, rfl, rfl, fun _ => congrArg _ (cat_highByte_lowByte base)⟩
theorem TableRow.ldxAbsoluteY (base : Addr) : TableRow.Statement (.ldxAbsoluteY base) := ⟨_, rfl, rfl, rfl, fun _ => congrArg _ (cat_highByte_lowByte base)⟩
theorem TableRow.ldyImmediate (value : Byte) : TableRow.Statement (.ldyImmediate value) := ⟨_, rfl, rfl, rfl, fun _ => rfl⟩
theorem TableRow.ldyZeroPage (base : Byte) : TableRow.Statement (.ldyZeroPage base) := ⟨_, rfl, rfl, rfl, fun _ => rfl⟩
theorem TableRow.ldyZeroPageX (base : Byte) : TableRow.Statement (.ldyZeroPageX base) := ⟨_, rfl, rfl, rfl, fun _ => rfl⟩
theorem TableRow.ldyAbsolute (base : Addr) : TableRow.Statement (.ldyAbsolute base) := ⟨_, rfl, rfl, rfl, fun _ => congrArg _ (cat_highByte_lowByte base)⟩
theorem TableRow.ldyAbsoluteX (base : Addr) : TableRow.Statement (.ldyAbsoluteX base) := ⟨_, rfl, rfl, rfl, fun _ => congrArg _ (cat_highByte_lowByte base)⟩
theorem TableRow.staZeroPage (base : Byte) : TableRow.Statement (.staZeroPage base) := ⟨_, rfl, rfl, rfl, fun _ => rfl⟩
theorem TableRow.staZeroPageX (base : Byte) : TableRow.Statement (.staZeroPageX base) := ⟨_, rfl, rfl, rfl, fun _ => rfl⟩
theorem TableRow.staAbsolute (base : Addr) : TableRow.Statement (.staAbsolute base) := ⟨_, rfl, rfl, rfl, fun _ => congrArg _ (cat_highByte_lowByte base)⟩
theorem TableRow.staAbsoluteX (base : Addr) : TableRow.Statement (.staAbsoluteX base) := ⟨_, rfl, rfl, rfl, fun _ => congrArg _ (cat_highByte_lowByte base)⟩
theorem TableRow.staAbsoluteY (base : Addr) : TableRow.Statement (.staAbsoluteY base) := ⟨_, rfl, rfl, rfl, fun _ => congrArg _ (cat_highByte_lowByte base)⟩
theorem TableRow.staIndexedIndirect (base : Byte) : TableRow.Statement (.staIndexedIndirect base) := ⟨_, rfl, rfl, rfl, fun _ => rfl⟩
theorem TableRow.staIndirectIndexed (base : Byte) : TableRow.Statement (.staIndirectIndexed base) := ⟨_, rfl, rfl, rfl, fun _ => rfl⟩
theorem TableRow.stxZeroPage (base : Byte) : TableRow.Statement (.stxZeroPage base) := ⟨_, rfl, rfl, rfl, fun _ => rfl⟩
theorem TableRow.stxZeroPageY (base : Byte) : TableRow.Statement (.stxZeroPageY base) := ⟨_, rfl, rfl, rfl, fun _ => rfl⟩
theorem TableRow.stxAbsolute (base : Addr) : TableRow.Statement (.stxAbsolute base) := ⟨_, rfl, rfl, rfl, fun _ => congrArg _ (cat_highByte_lowByte base)⟩
theorem TableRow.styZeroPage (base : Byte) : TableRow.Statement (.styZeroPage base) := ⟨_, rfl, rfl, rfl, fun _ => rfl⟩
theorem TableRow.styZeroPageX (base : Byte) : TableRow.Statement (.styZeroPageX base) := ⟨_, rfl, rfl, rfl, fun _ => rfl⟩
theorem TableRow.styAbsolute (base : Addr) : TableRow.Statement (.styAbsolute base) := ⟨_, rfl, rfl, rfl, fun _ => congrArg _ (cat_highByte_lowByte base)⟩
theorem TableRow.tax : TableRow.Statement .tax := ⟨_, rfl, rfl, rfl, fun _ => rfl⟩
theorem TableRow.tay : TableRow.Statement .tay := ⟨_, rfl, rfl, rfl, fun _ => rfl⟩
theorem TableRow.txa : TableRow.Statement .txa := ⟨_, rfl, rfl, rfl, fun _ => rfl⟩
theorem TableRow.tya : TableRow.Statement .tya := ⟨_, rfl, rfl, rfl, fun _ => rfl⟩
theorem TableRow.tsx : TableRow.Statement .tsx := ⟨_, rfl, rfl, rfl, fun _ => rfl⟩
theorem TableRow.txs : TableRow.Statement .txs := ⟨_, rfl, rfl, rfl, fun _ => rfl⟩
theorem TableRow.andImmediate (value : Byte) : TableRow.Statement (.andImmediate value) := ⟨_, rfl, rfl, rfl, fun _ => rfl⟩
theorem TableRow.andZeroPage (base : Byte) : TableRow.Statement (.andZeroPage base) := ⟨_, rfl, rfl, rfl, fun _ => rfl⟩
theorem TableRow.andZeroPageX (base : Byte) : TableRow.Statement (.andZeroPageX base) := ⟨_, rfl, rfl, rfl, fun _ => rfl⟩
theorem TableRow.andAbsolute (base : Addr) : TableRow.Statement (.andAbsolute base) := ⟨_, rfl, rfl, rfl, fun _ => congrArg _ (cat_highByte_lowByte base)⟩
theorem TableRow.andAbsoluteX (base : Addr) : TableRow.Statement (.andAbsoluteX base) := ⟨_, rfl, rfl, rfl, fun _ => congrArg _ (cat_highByte_lowByte base)⟩
theorem TableRow.andAbsoluteY (base : Addr) : TableRow.Statement (.andAbsoluteY base) := ⟨_, rfl, rfl, rfl, fun _ => congrArg _ (cat_highByte_lowByte base)⟩
theorem TableRow.andIndexedIndirect (base : Byte) : TableRow.Statement (.andIndexedIndirect base) := ⟨_, rfl, rfl, rfl, fun _ => rfl⟩
theorem TableRow.andIndirectIndexed (base : Byte) : TableRow.Statement (.andIndirectIndexed base) := ⟨_, rfl, rfl, rfl, fun _ => rfl⟩
theorem TableRow.oraImmediate (value : Byte) : TableRow.Statement (.oraImmediate value) := ⟨_, rfl, rfl, rfl, fun _ => rfl⟩
theorem TableRow.oraZeroPage (base : Byte) : TableRow.Statement (.oraZeroPage base) := ⟨_, rfl, rfl, rfl, fun _ => rfl⟩
theorem TableRow.oraZeroPageX (base : Byte) : TableRow.Statement (.oraZeroPageX base) := ⟨_, rfl, rfl, rfl, fun _ => rfl⟩
theorem TableRow.oraAbsolute (base : Addr) : TableRow.Statement (.oraAbsolute base) := ⟨_, rfl, rfl, rfl, fun _ => congrArg _ (cat_highByte_lowByte base)⟩
theorem TableRow.oraAbsoluteX (base : Addr) : TableRow.Statement (.oraAbsoluteX base) := ⟨_, rfl, rfl, rfl, fun _ => congrArg _ (cat_highByte_lowByte base)⟩
theorem TableRow.oraAbsoluteY (base : Addr) : TableRow.Statement (.oraAbsoluteY base) := ⟨_, rfl, rfl, rfl, fun _ => congrArg _ (cat_highByte_lowByte base)⟩
theorem TableRow.oraIndexedIndirect (base : Byte) : TableRow.Statement (.oraIndexedIndirect base) := ⟨_, rfl, rfl, rfl, fun _ => rfl⟩
theorem TableRow.oraIndirectIndexed (base : Byte) : TableRow.Statement (.oraIndirectIndexed base) := ⟨_, rfl, rfl, rfl, fun _ => rfl⟩
theorem TableRow.eorImmediate (value : Byte) : TableRow.Statement (.eorImmediate value) := ⟨_, rfl, rfl, rfl, fun _ => rfl⟩
theorem TableRow.eorZeroPage (base : Byte) : TableRow.Statement (.eorZeroPage base) := ⟨_, rfl, rfl, rfl, fun _ => rfl⟩
theorem TableRow.eorZeroPageX (base : Byte) : TableRow.Statement (.eorZeroPageX base) := ⟨_, rfl, rfl, rfl, fun _ => rfl⟩
theorem TableRow.eorAbsolute (base : Addr) : TableRow.Statement (.eorAbsolute base) := ⟨_, rfl, rfl, rfl, fun _ => congrArg _ (cat_highByte_lowByte base)⟩
theorem TableRow.eorAbsoluteX (base : Addr) : TableRow.Statement (.eorAbsoluteX base) := ⟨_, rfl, rfl, rfl, fun _ => congrArg _ (cat_highByte_lowByte base)⟩
theorem TableRow.eorAbsoluteY (base : Addr) : TableRow.Statement (.eorAbsoluteY base) := ⟨_, rfl, rfl, rfl, fun _ => congrArg _ (cat_highByte_lowByte base)⟩
theorem TableRow.eorIndexedIndirect (base : Byte) : TableRow.Statement (.eorIndexedIndirect base) := ⟨_, rfl, rfl, rfl, fun _ => rfl⟩
theorem TableRow.eorIndirectIndexed (base : Byte) : TableRow.Statement (.eorIndirectIndexed base) := ⟨_, rfl, rfl, rfl, fun _ => rfl⟩
theorem TableRow.adcImmediate (value : Byte) : TableRow.Statement (.adcImmediate value) := ⟨_, rfl, rfl, rfl, fun _ => rfl⟩
theorem TableRow.adcZeroPage (base : Byte) : TableRow.Statement (.adcZeroPage base) := ⟨_, rfl, rfl, rfl, fun _ => rfl⟩
theorem TableRow.adcZeroPageX (base : Byte) : TableRow.Statement (.adcZeroPageX base) := ⟨_, rfl, rfl, rfl, fun _ => rfl⟩
theorem TableRow.adcAbsolute (base : Addr) : TableRow.Statement (.adcAbsolute base) := ⟨_, rfl, rfl, rfl, fun _ => congrArg _ (cat_highByte_lowByte base)⟩
theorem TableRow.adcAbsoluteX (base : Addr) : TableRow.Statement (.adcAbsoluteX base) := ⟨_, rfl, rfl, rfl, fun _ => congrArg _ (cat_highByte_lowByte base)⟩
theorem TableRow.adcAbsoluteY (base : Addr) : TableRow.Statement (.adcAbsoluteY base) := ⟨_, rfl, rfl, rfl, fun _ => congrArg _ (cat_highByte_lowByte base)⟩
theorem TableRow.adcIndexedIndirect (base : Byte) : TableRow.Statement (.adcIndexedIndirect base) := ⟨_, rfl, rfl, rfl, fun _ => rfl⟩
theorem TableRow.adcIndirectIndexed (base : Byte) : TableRow.Statement (.adcIndirectIndexed base) := ⟨_, rfl, rfl, rfl, fun _ => rfl⟩
theorem TableRow.sbcImmediate (value : Byte) : TableRow.Statement (.sbcImmediate value) := ⟨_, rfl, rfl, rfl, fun _ => rfl⟩
theorem TableRow.sbcZeroPage (base : Byte) : TableRow.Statement (.sbcZeroPage base) := ⟨_, rfl, rfl, rfl, fun _ => rfl⟩
theorem TableRow.sbcZeroPageX (base : Byte) : TableRow.Statement (.sbcZeroPageX base) := ⟨_, rfl, rfl, rfl, fun _ => rfl⟩
theorem TableRow.sbcAbsolute (base : Addr) : TableRow.Statement (.sbcAbsolute base) := ⟨_, rfl, rfl, rfl, fun _ => congrArg _ (cat_highByte_lowByte base)⟩
theorem TableRow.sbcAbsoluteX (base : Addr) : TableRow.Statement (.sbcAbsoluteX base) := ⟨_, rfl, rfl, rfl, fun _ => congrArg _ (cat_highByte_lowByte base)⟩
theorem TableRow.sbcAbsoluteY (base : Addr) : TableRow.Statement (.sbcAbsoluteY base) := ⟨_, rfl, rfl, rfl, fun _ => congrArg _ (cat_highByte_lowByte base)⟩
theorem TableRow.sbcIndexedIndirect (base : Byte) : TableRow.Statement (.sbcIndexedIndirect base) := ⟨_, rfl, rfl, rfl, fun _ => rfl⟩
theorem TableRow.sbcIndirectIndexed (base : Byte) : TableRow.Statement (.sbcIndirectIndexed base) := ⟨_, rfl, rfl, rfl, fun _ => rfl⟩
theorem TableRow.cmpImmediate (value : Byte) : TableRow.Statement (.cmpImmediate value) := ⟨_, rfl, rfl, rfl, fun _ => rfl⟩
theorem TableRow.cmpZeroPage (base : Byte) : TableRow.Statement (.cmpZeroPage base) := ⟨_, rfl, rfl, rfl, fun _ => rfl⟩
theorem TableRow.cmpZeroPageX (base : Byte) : TableRow.Statement (.cmpZeroPageX base) := ⟨_, rfl, rfl, rfl, fun _ => rfl⟩
theorem TableRow.cmpAbsolute (base : Addr) : TableRow.Statement (.cmpAbsolute base) := ⟨_, rfl, rfl, rfl, fun _ => congrArg _ (cat_highByte_lowByte base)⟩
theorem TableRow.cmpAbsoluteX (base : Addr) : TableRow.Statement (.cmpAbsoluteX base) := ⟨_, rfl, rfl, rfl, fun _ => congrArg _ (cat_highByte_lowByte base)⟩
theorem TableRow.cmpAbsoluteY (base : Addr) : TableRow.Statement (.cmpAbsoluteY base) := ⟨_, rfl, rfl, rfl, fun _ => congrArg _ (cat_highByte_lowByte base)⟩
theorem TableRow.cmpIndexedIndirect (base : Byte) : TableRow.Statement (.cmpIndexedIndirect base) := ⟨_, rfl, rfl, rfl, fun _ => rfl⟩
theorem TableRow.cmpIndirectIndexed (base : Byte) : TableRow.Statement (.cmpIndirectIndexed base) := ⟨_, rfl, rfl, rfl, fun _ => rfl⟩
theorem TableRow.cpxImmediate (value : Byte) : TableRow.Statement (.cpxImmediate value) := ⟨_, rfl, rfl, rfl, fun _ => rfl⟩
theorem TableRow.cpxZeroPage (base : Byte) : TableRow.Statement (.cpxZeroPage base) := ⟨_, rfl, rfl, rfl, fun _ => rfl⟩
theorem TableRow.cpxAbsolute (base : Addr) : TableRow.Statement (.cpxAbsolute base) := ⟨_, rfl, rfl, rfl, fun _ => congrArg _ (cat_highByte_lowByte base)⟩
theorem TableRow.cpyImmediate (value : Byte) : TableRow.Statement (.cpyImmediate value) := ⟨_, rfl, rfl, rfl, fun _ => rfl⟩
theorem TableRow.cpyZeroPage (base : Byte) : TableRow.Statement (.cpyZeroPage base) := ⟨_, rfl, rfl, rfl, fun _ => rfl⟩
theorem TableRow.cpyAbsolute (base : Addr) : TableRow.Statement (.cpyAbsolute base) := ⟨_, rfl, rfl, rfl, fun _ => congrArg _ (cat_highByte_lowByte base)⟩
theorem TableRow.bitZeroPage (base : Byte) : TableRow.Statement (.bitZeroPage base) := ⟨_, rfl, rfl, rfl, fun _ => rfl⟩
theorem TableRow.bitAbsolute (base : Addr) : TableRow.Statement (.bitAbsolute base) := ⟨_, rfl, rfl, rfl, fun _ => congrArg _ (cat_highByte_lowByte base)⟩
theorem TableRow.inx : TableRow.Statement .inx := ⟨_, rfl, rfl, rfl, fun _ => rfl⟩
theorem TableRow.dex : TableRow.Statement .dex := ⟨_, rfl, rfl, rfl, fun _ => rfl⟩
theorem TableRow.iny : TableRow.Statement .iny := ⟨_, rfl, rfl, rfl, fun _ => rfl⟩
theorem TableRow.dey : TableRow.Statement .dey := ⟨_, rfl, rfl, rfl, fun _ => rfl⟩
theorem TableRow.incZeroPage (base : Byte) : TableRow.Statement (.incZeroPage base) := ⟨_, rfl, rfl, rfl, fun _ => rfl⟩
theorem TableRow.incZeroPageX (base : Byte) : TableRow.Statement (.incZeroPageX base) := ⟨_, rfl, rfl, rfl, fun _ => rfl⟩
theorem TableRow.incAbsolute (base : Addr) : TableRow.Statement (.incAbsolute base) := ⟨_, rfl, rfl, rfl, fun _ => congrArg _ (cat_highByte_lowByte base)⟩
theorem TableRow.incAbsoluteX (base : Addr) : TableRow.Statement (.incAbsoluteX base) := ⟨_, rfl, rfl, rfl, fun _ => congrArg _ (cat_highByte_lowByte base)⟩
theorem TableRow.decZeroPage (base : Byte) : TableRow.Statement (.decZeroPage base) := ⟨_, rfl, rfl, rfl, fun _ => rfl⟩
theorem TableRow.decZeroPageX (base : Byte) : TableRow.Statement (.decZeroPageX base) := ⟨_, rfl, rfl, rfl, fun _ => rfl⟩
theorem TableRow.decAbsolute (base : Addr) : TableRow.Statement (.decAbsolute base) := ⟨_, rfl, rfl, rfl, fun _ => congrArg _ (cat_highByte_lowByte base)⟩
theorem TableRow.decAbsoluteX (base : Addr) : TableRow.Statement (.decAbsoluteX base) := ⟨_, rfl, rfl, rfl, fun _ => congrArg _ (cat_highByte_lowByte base)⟩
theorem TableRow.aslAccumulator : TableRow.Statement .aslAccumulator := ⟨_, rfl, rfl, rfl, fun _ => rfl⟩
theorem TableRow.aslZeroPage (base : Byte) : TableRow.Statement (.aslZeroPage base) := ⟨_, rfl, rfl, rfl, fun _ => rfl⟩
theorem TableRow.aslZeroPageX (base : Byte) : TableRow.Statement (.aslZeroPageX base) := ⟨_, rfl, rfl, rfl, fun _ => rfl⟩
theorem TableRow.aslAbsolute (base : Addr) : TableRow.Statement (.aslAbsolute base) := ⟨_, rfl, rfl, rfl, fun _ => congrArg _ (cat_highByte_lowByte base)⟩
theorem TableRow.aslAbsoluteX (base : Addr) : TableRow.Statement (.aslAbsoluteX base) := ⟨_, rfl, rfl, rfl, fun _ => congrArg _ (cat_highByte_lowByte base)⟩
theorem TableRow.lsrAccumulator : TableRow.Statement .lsrAccumulator := ⟨_, rfl, rfl, rfl, fun _ => rfl⟩
theorem TableRow.lsrZeroPage (base : Byte) : TableRow.Statement (.lsrZeroPage base) := ⟨_, rfl, rfl, rfl, fun _ => rfl⟩
theorem TableRow.lsrZeroPageX (base : Byte) : TableRow.Statement (.lsrZeroPageX base) := ⟨_, rfl, rfl, rfl, fun _ => rfl⟩
theorem TableRow.lsrAbsolute (base : Addr) : TableRow.Statement (.lsrAbsolute base) := ⟨_, rfl, rfl, rfl, fun _ => congrArg _ (cat_highByte_lowByte base)⟩
theorem TableRow.lsrAbsoluteX (base : Addr) : TableRow.Statement (.lsrAbsoluteX base) := ⟨_, rfl, rfl, rfl, fun _ => congrArg _ (cat_highByte_lowByte base)⟩
theorem TableRow.rolAccumulator : TableRow.Statement .rolAccumulator := ⟨_, rfl, rfl, rfl, fun _ => rfl⟩
theorem TableRow.rolZeroPage (base : Byte) : TableRow.Statement (.rolZeroPage base) := ⟨_, rfl, rfl, rfl, fun _ => rfl⟩
theorem TableRow.rolZeroPageX (base : Byte) : TableRow.Statement (.rolZeroPageX base) := ⟨_, rfl, rfl, rfl, fun _ => rfl⟩
theorem TableRow.rolAbsolute (base : Addr) : TableRow.Statement (.rolAbsolute base) := ⟨_, rfl, rfl, rfl, fun _ => congrArg _ (cat_highByte_lowByte base)⟩
theorem TableRow.rolAbsoluteX (base : Addr) : TableRow.Statement (.rolAbsoluteX base) := ⟨_, rfl, rfl, rfl, fun _ => congrArg _ (cat_highByte_lowByte base)⟩
theorem TableRow.rorAccumulator : TableRow.Statement .rorAccumulator := ⟨_, rfl, rfl, rfl, fun _ => rfl⟩
theorem TableRow.rorZeroPage (base : Byte) : TableRow.Statement (.rorZeroPage base) := ⟨_, rfl, rfl, rfl, fun _ => rfl⟩
theorem TableRow.rorZeroPageX (base : Byte) : TableRow.Statement (.rorZeroPageX base) := ⟨_, rfl, rfl, rfl, fun _ => rfl⟩
theorem TableRow.rorAbsolute (base : Addr) : TableRow.Statement (.rorAbsolute base) := ⟨_, rfl, rfl, rfl, fun _ => congrArg _ (cat_highByte_lowByte base)⟩
theorem TableRow.rorAbsoluteX (base : Addr) : TableRow.Statement (.rorAbsoluteX base) := ⟨_, rfl, rfl, rfl, fun _ => congrArg _ (cat_highByte_lowByte base)⟩
theorem TableRow.pha : TableRow.Statement .pha := ⟨_, rfl, rfl, rfl, fun _ => rfl⟩
theorem TableRow.php : TableRow.Statement .php := ⟨_, rfl, rfl, rfl, fun _ => rfl⟩
theorem TableRow.pla : TableRow.Statement .pla := ⟨_, rfl, rfl, rfl, fun _ => rfl⟩
theorem TableRow.plp : TableRow.Statement .plp := ⟨_, rfl, rfl, rfl, fun _ => rfl⟩
theorem TableRow.jmpAbsolute (base : Addr) : TableRow.Statement (.jmpAbsolute base) := ⟨_, rfl, rfl, rfl, fun _ => congrArg _ (cat_highByte_lowByte base)⟩
theorem TableRow.jmpIndirect (pointer : Addr) : TableRow.Statement (.jmpIndirect pointer) := ⟨_, rfl, rfl, rfl, fun _ => congrArg _ (cat_highByte_lowByte pointer)⟩
theorem TableRow.jsr (base : Addr) : TableRow.Statement (.jsr base) := ⟨_, rfl, rfl, rfl, fun _ => congrArg _ (cat_highByte_lowByte base)⟩
theorem TableRow.rts : TableRow.Statement .rts := ⟨_, rfl, rfl, rfl, fun _ => rfl⟩
theorem TableRow.rti : TableRow.Statement .rti := ⟨_, rfl, rfl, rfl, fun _ => rfl⟩
theorem TableRow.brk : TableRow.Statement .brk := ⟨_, rfl, rfl, rfl, fun _ => rfl⟩
theorem TableRow.bcc (offset : Byte) : TableRow.Statement (.bcc offset) := ⟨_, rfl, rfl, rfl, fun _ => rfl⟩
theorem TableRow.bcs (offset : Byte) : TableRow.Statement (.bcs offset) := ⟨_, rfl, rfl, rfl, fun _ => rfl⟩
theorem TableRow.beq (offset : Byte) : TableRow.Statement (.beq offset) := ⟨_, rfl, rfl, rfl, fun _ => rfl⟩
theorem TableRow.bne (offset : Byte) : TableRow.Statement (.bne offset) := ⟨_, rfl, rfl, rfl, fun _ => rfl⟩
theorem TableRow.bmi (offset : Byte) : TableRow.Statement (.bmi offset) := ⟨_, rfl, rfl, rfl, fun _ => rfl⟩
theorem TableRow.bpl (offset : Byte) : TableRow.Statement (.bpl offset) := ⟨_, rfl, rfl, rfl, fun _ => rfl⟩
theorem TableRow.bvc (offset : Byte) : TableRow.Statement (.bvc offset) := ⟨_, rfl, rfl, rfl, fun _ => rfl⟩
theorem TableRow.bvs (offset : Byte) : TableRow.Statement (.bvs offset) := ⟨_, rfl, rfl, rfl, fun _ => rfl⟩
theorem TableRow.clc : TableRow.Statement .clc := ⟨_, rfl, rfl, rfl, fun _ => rfl⟩
theorem TableRow.sec : TableRow.Statement .sec := ⟨_, rfl, rfl, rfl, fun _ => rfl⟩
theorem TableRow.cli : TableRow.Statement .cli := ⟨_, rfl, rfl, rfl, fun _ => rfl⟩
theorem TableRow.sei : TableRow.Statement .sei := ⟨_, rfl, rfl, rfl, fun _ => rfl⟩
theorem TableRow.cld : TableRow.Statement .cld := ⟨_, rfl, rfl, rfl, fun _ => rfl⟩
theorem TableRow.sed : TableRow.Statement .sed := ⟨_, rfl, rfl, rfl, fun _ => rfl⟩
theorem TableRow.clv : TableRow.Statement .clv := ⟨_, rfl, rfl, rfl, fun _ => rfl⟩
theorem TableRow.nop : TableRow.Statement .nop := ⟨_, rfl, rfl, rfl, fun _ => rfl⟩

/-- Every instruction has its row. -/
theorem TableRow.all (i : Instr) : TableRow.Statement i := by
  cases i
  case ldaImmediate v => exact TableRow.ldaImmediate v
  case ldaZeroPage v => exact TableRow.ldaZeroPage v
  case ldaZeroPageX v => exact TableRow.ldaZeroPageX v
  case ldaAbsolute v => exact TableRow.ldaAbsolute v
  case ldaAbsoluteX v => exact TableRow.ldaAbsoluteX v
  case ldaAbsoluteY v => exact TableRow.ldaAbsoluteY v
  case ldaIndexedIndirect v => exact TableRow.ldaIndexedIndirect v
  case ldaIndirectIndexed v => exact TableRow.ldaIndirectIndexed v
  case ldxImmediate v => exact TableRow.ldxImmediate v
  case ldxZeroPage v => exact TableRow.ldxZeroPage v
  case ldxZeroPageY v => exact TableRow.ldxZeroPageY v
  case ldxAbsolute v => exact TableRow.ldxAbsolute v
  case ldxAbsoluteY v => exact TableRow.ldxAbsoluteY v
  case ldyImmediate v => exact TableRow.ldyImmediate v
  case ldyZeroPage v => exact TableRow.ldyZeroPage v
  case ldyZeroPageX v => exact TableRow.ldyZeroPageX v
  case ldyAbsolute v => exact TableRow.ldyAbsolute v
  case ldyAbsoluteX v => exact TableRow.ldyAbsoluteX v
  case staZeroPage v => exact TableRow.staZeroPage v
  case staZeroPageX v => exact TableRow.staZeroPageX v
  case staAbsolute v => exact TableRow.staAbsolute v
  case staAbsoluteX v => exact TableRow.staAbsoluteX v
  case staAbsoluteY v => exact TableRow.staAbsoluteY v
  case staIndexedIndirect v => exact TableRow.staIndexedIndirect v
  case staIndirectIndexed v => exact TableRow.staIndirectIndexed v
  case stxZeroPage v => exact TableRow.stxZeroPage v
  case stxZeroPageY v => exact TableRow.stxZeroPageY v
  case stxAbsolute v => exact TableRow.stxAbsolute v
  case styZeroPage v => exact TableRow.styZeroPage v
  case styZeroPageX v => exact TableRow.styZeroPageX v
  case styAbsolute v => exact TableRow.styAbsolute v
  case tax => exact TableRow.tax
  case tay => exact TableRow.tay
  case txa => exact TableRow.txa
  case tya => exact TableRow.tya
  case tsx => exact TableRow.tsx
  case txs => exact TableRow.txs
  case andImmediate v => exact TableRow.andImmediate v
  case andZeroPage v => exact TableRow.andZeroPage v
  case andZeroPageX v => exact TableRow.andZeroPageX v
  case andAbsolute v => exact TableRow.andAbsolute v
  case andAbsoluteX v => exact TableRow.andAbsoluteX v
  case andAbsoluteY v => exact TableRow.andAbsoluteY v
  case andIndexedIndirect v => exact TableRow.andIndexedIndirect v
  case andIndirectIndexed v => exact TableRow.andIndirectIndexed v
  case oraImmediate v => exact TableRow.oraImmediate v
  case oraZeroPage v => exact TableRow.oraZeroPage v
  case oraZeroPageX v => exact TableRow.oraZeroPageX v
  case oraAbsolute v => exact TableRow.oraAbsolute v
  case oraAbsoluteX v => exact TableRow.oraAbsoluteX v
  case oraAbsoluteY v => exact TableRow.oraAbsoluteY v
  case oraIndexedIndirect v => exact TableRow.oraIndexedIndirect v
  case oraIndirectIndexed v => exact TableRow.oraIndirectIndexed v
  case eorImmediate v => exact TableRow.eorImmediate v
  case eorZeroPage v => exact TableRow.eorZeroPage v
  case eorZeroPageX v => exact TableRow.eorZeroPageX v
  case eorAbsolute v => exact TableRow.eorAbsolute v
  case eorAbsoluteX v => exact TableRow.eorAbsoluteX v
  case eorAbsoluteY v => exact TableRow.eorAbsoluteY v
  case eorIndexedIndirect v => exact TableRow.eorIndexedIndirect v
  case eorIndirectIndexed v => exact TableRow.eorIndirectIndexed v
  case adcImmediate v => exact TableRow.adcImmediate v
  case adcZeroPage v => exact TableRow.adcZeroPage v
  case adcZeroPageX v => exact TableRow.adcZeroPageX v
  case adcAbsolute v => exact TableRow.adcAbsolute v
  case adcAbsoluteX v => exact TableRow.adcAbsoluteX v
  case adcAbsoluteY v => exact TableRow.adcAbsoluteY v
  case adcIndexedIndirect v => exact TableRow.adcIndexedIndirect v
  case adcIndirectIndexed v => exact TableRow.adcIndirectIndexed v
  case sbcImmediate v => exact TableRow.sbcImmediate v
  case sbcZeroPage v => exact TableRow.sbcZeroPage v
  case sbcZeroPageX v => exact TableRow.sbcZeroPageX v
  case sbcAbsolute v => exact TableRow.sbcAbsolute v
  case sbcAbsoluteX v => exact TableRow.sbcAbsoluteX v
  case sbcAbsoluteY v => exact TableRow.sbcAbsoluteY v
  case sbcIndexedIndirect v => exact TableRow.sbcIndexedIndirect v
  case sbcIndirectIndexed v => exact TableRow.sbcIndirectIndexed v
  case cmpImmediate v => exact TableRow.cmpImmediate v
  case cmpZeroPage v => exact TableRow.cmpZeroPage v
  case cmpZeroPageX v => exact TableRow.cmpZeroPageX v
  case cmpAbsolute v => exact TableRow.cmpAbsolute v
  case cmpAbsoluteX v => exact TableRow.cmpAbsoluteX v
  case cmpAbsoluteY v => exact TableRow.cmpAbsoluteY v
  case cmpIndexedIndirect v => exact TableRow.cmpIndexedIndirect v
  case cmpIndirectIndexed v => exact TableRow.cmpIndirectIndexed v
  case cpxImmediate v => exact TableRow.cpxImmediate v
  case cpxZeroPage v => exact TableRow.cpxZeroPage v
  case cpxAbsolute v => exact TableRow.cpxAbsolute v
  case cpyImmediate v => exact TableRow.cpyImmediate v
  case cpyZeroPage v => exact TableRow.cpyZeroPage v
  case cpyAbsolute v => exact TableRow.cpyAbsolute v
  case bitZeroPage v => exact TableRow.bitZeroPage v
  case bitAbsolute v => exact TableRow.bitAbsolute v
  case inx => exact TableRow.inx
  case dex => exact TableRow.dex
  case iny => exact TableRow.iny
  case dey => exact TableRow.dey
  case incZeroPage v => exact TableRow.incZeroPage v
  case incZeroPageX v => exact TableRow.incZeroPageX v
  case incAbsolute v => exact TableRow.incAbsolute v
  case incAbsoluteX v => exact TableRow.incAbsoluteX v
  case decZeroPage v => exact TableRow.decZeroPage v
  case decZeroPageX v => exact TableRow.decZeroPageX v
  case decAbsolute v => exact TableRow.decAbsolute v
  case decAbsoluteX v => exact TableRow.decAbsoluteX v
  case aslAccumulator => exact TableRow.aslAccumulator
  case aslZeroPage v => exact TableRow.aslZeroPage v
  case aslZeroPageX v => exact TableRow.aslZeroPageX v
  case aslAbsolute v => exact TableRow.aslAbsolute v
  case aslAbsoluteX v => exact TableRow.aslAbsoluteX v
  case lsrAccumulator => exact TableRow.lsrAccumulator
  case lsrZeroPage v => exact TableRow.lsrZeroPage v
  case lsrZeroPageX v => exact TableRow.lsrZeroPageX v
  case lsrAbsolute v => exact TableRow.lsrAbsolute v
  case lsrAbsoluteX v => exact TableRow.lsrAbsoluteX v
  case rolAccumulator => exact TableRow.rolAccumulator
  case rolZeroPage v => exact TableRow.rolZeroPage v
  case rolZeroPageX v => exact TableRow.rolZeroPageX v
  case rolAbsolute v => exact TableRow.rolAbsolute v
  case rolAbsoluteX v => exact TableRow.rolAbsoluteX v
  case rorAccumulator => exact TableRow.rorAccumulator
  case rorZeroPage v => exact TableRow.rorZeroPage v
  case rorZeroPageX v => exact TableRow.rorZeroPageX v
  case rorAbsolute v => exact TableRow.rorAbsolute v
  case rorAbsoluteX v => exact TableRow.rorAbsoluteX v
  case pha => exact TableRow.pha
  case php => exact TableRow.php
  case pla => exact TableRow.pla
  case plp => exact TableRow.plp
  case jmpAbsolute v => exact TableRow.jmpAbsolute v
  case jmpIndirect v => exact TableRow.jmpIndirect v
  case jsr v => exact TableRow.jsr v
  case rts => exact TableRow.rts
  case rti => exact TableRow.rti
  case brk => exact TableRow.brk
  case bcc v => exact TableRow.bcc v
  case bcs v => exact TableRow.bcs v
  case beq v => exact TableRow.beq v
  case bne v => exact TableRow.bne v
  case bmi v => exact TableRow.bmi v
  case bpl v => exact TableRow.bpl v
  case bvc v => exact TableRow.bvc v
  case bvs v => exact TableRow.bvs v
  case clc => exact TableRow.clc
  case sec => exact TableRow.sec
  case cli => exact TableRow.cli
  case sei => exact TableRow.sei
  case cld => exact TableRow.cld
  case sed => exact TableRow.sed
  case clv => exact TableRow.clv
  case nop => exact TableRow.nop

end Sys2Proof.Laws
end

