-- ==== Sys2Proof/Laws/Fetch.lean ====
section
/-! SUPPORT. What Identify reads (R81), what placing bytes does, and what a completed step is made of (R80, R88). -/

namespace Sys2Proof.Machine

/-- The operand fetch answers the bytes that can be read, in order (R81). -/
theorem fetchOperands_ok_iff {s : State} {n : Nat} {a : Addr} {bs : List Byte} :
    fetchOperands s n a = .ok bs ↔ bs.length = n ∧ ∀ k b, bs[k]? = some b → Reads s (a + BitVec.ofNat 16 k) b := by
  induction n generalizing a bs with
  | zero => cases bs <;> simp [fetchOperands]
  | succ n ih =>
    simp only [fetchOperands, bind_eq_ok_iff, pure_eq_ok_iff, memRead_ok_iff, ih]
    have shift : ∀ k : Nat, a + 1#16 + BitVec.ofNat 16 k = a + BitVec.ofNat 16 (k + 1) := fun k => by
      apply BitVec.eq_of_toNat_eq
      have h1 : (1#16).toNat = 1 := rfl
      simp only [BitVec.toNat_add, BitVec.toNat_ofNat, h1]
      omega
    constructor
    · rintro ⟨b, hb, tl, ⟨hl, htl⟩, rfl⟩
      refine ⟨by simp [hl], fun k c hk => ?_⟩
      cases k with
      | zero => simp at hk; subst hk; simpa using hb
      | succ k => rw [← shift]; exact htl k c (by simpa using hk)
    · rintro ⟨hl, h⟩
      cases bs with
      | nil => simp at hl
      | cons b tl =>
        refine ⟨b, by simpa using h 0 b rfl, tl, ⟨by simpa using hl, fun k c hk => ?_⟩, rfl⟩
        rw [shift]
        exact h (k + 1) c (by simpa using hk)

/-- The operand fetch faults at its first unmapped byte (R81, R228). -/
theorem fetchOperands_error {s : State} {n : Nat} {a : Addr} {f : Fault} (h : fetchOperands s n a = .error f) :
    ∃ k < n, Unmapped s (a + BitVec.ofNat 16 k) ∧ f = .unmappedMemoryAddress (a + BitVec.ofNat 16 k) := by
  induction n generalizing a with
  | zero => simp [fetchOperands] at h
  | succ n ih =>
    simp only [fetchOperands, bind_eq_error_iff, pure_ne_error, memRead_error_iff, and_false, exists_false,
      or_false] at h
    rcases h with h | ⟨-, -, h⟩
    · exact ⟨0, by omega, by simpa using h⟩
    · obtain ⟨k, hk, h⟩ := ih h
      have e : a + 1#16 + BitVec.ofNat 16 k = a + BitVec.ofNat 16 (k + 1) := by
        apply BitVec.eq_of_toNat_eq
        have h1 : (1#16).toNat = 1 := rfl
        simp only [BitVec.toNat_add, BitVec.toNat_ofNat, h1]
        omega
      exact ⟨k + 1, by omega, e ▸ h⟩

/-- Everything Identify can answer (R81). -/
theorem identify_ok_iff {s : State} {row : DecodeRow} {bs : List Byte} :
    identify s = .ok (row, bs) ↔ ∃ op, Reads s s.pc op ∧ lookup op = some row ∧
      fetchOperands s row.mode.operandLength (s.pc + 1#16) = .ok bs := by
  simp only [identify, bind_eq_ok_iff, memRead_ok_iff]
  refine exists_congr fun op => and_congr_right fun _ => ?_
  cases lookup op with
  | none => simp
  | some r =>
    simp only [bind_eq_ok_iff, pure_eq_ok_iff, Prod.mk.injEq, Option.some.injEq]
    constructor
    · rintro ⟨b, h, rfl, rfl⟩
      exact ⟨rfl, h⟩
    · rintro ⟨rfl, h⟩
      exact ⟨_, h, rfl, rfl⟩

theorem emitIfCompleted_next_iff {r : TraceRecord} {o : Host.Outcome State Fault Refusal} {u : State} :
    emitIfCompleted r o = .next u ↔ ∃ t, o = .next t ∧ u = t.emit r := by
  cases o <;> simp [emitIfCompleted, eq_comm]

/-- Where Identify answers, a step of a running state is `exec` and the record. -/
theorem step_of_identify {s : State} {row : DecodeRow} {bs : List Byte} (hr : s.run = .running)
    (hi : identify s = .ok (row, bs)) :
    step s = emitIfCompleted (traceRecord s row.mnemonic bs) (exec (row.instr bs) s) := by
  simp [step, hr, stepRunning, hi]

/-- Where Identify faults, so does the step (R81, R88). -/
theorem step_of_identify_error {s : State} {f : Fault} (hr : s.run = .running) (hi : identify s = .error f) :
    step s = .fault f := by
  simp [step, hr, stepRunning, hi]

/-- A completed step: the block was running, Identify answered, `exec` completed, one record was emitted (R80, R89). -/
theorem step_next_iff {s u : State} :
    step s = .next u ↔ s.run = .running ∧ ∃ row bs t, identify s = .ok (row, bs) ∧
      exec (row.instr bs) s = .next t ∧ u = t.emit (traceRecord s row.mnemonic bs) := by
  cases hr : s.run with
  | halted => simp [step, hr]
  | faulted f => simp [step, hr]
  | refused op pc => simp [step, hr]
  | running =>
    cases hi : identify s with
    | error f => simp [step_of_identify_error hr hi]
    | ok slot =>
      obtain ⟨row, bs⟩ := slot
      rw [step_of_identify hr hi, emitIfCompleted_next_iff]
      constructor
      · rintro ⟨t, he, rfl⟩
        exact ⟨rfl, row, bs, t, rfl, he, rfl⟩
      · rintro ⟨-, row', bs', t, h, he, rfl⟩
        cases h
        exact ⟨t, he, rfl⟩

end Sys2Proof.Machine
end

