-- ==== Sys2Proof/Laws/Invariant.lean ====
section
/-! SUPPORT. What one instruction can do to the parts of the state no rule lets it write, and to memory: it writes bytes
at writable addresses and nothing else (R30, R31, R41 to R44). -/

namespace Sys2Proof.Machine

/-- Memory `m'` is `m` after writes at addresses writable in `s`. -/
inductive Written (s : State) (m : Memory) : Memory → Prop where
  | refl : Written s m m
  | write {m' : Memory} (a : Addr) (v : Byte) : Written s m m' → Writable s a → Written s m (Memory.write m' a.toNat v)

theorem Written.trans {s : State} {m m' m'' : Memory} (h : Written s m m') (h' : Written s m' m'') : Written s m m'' := by
  induction h' with
  | refl => exact h
  | write a v _ hw ih => exact .write a v ih hw

/-- Only the parameters matter for where writes may go. -/
theorem Written.congr {s t : State} (hc : t.cfg = s.cfg) {m m' : Memory} (h : Written t m m') : Written s m m' := by
  induction h with
  | refl => exact .refl
  | write a v _ hw ih => exact .write a v ih (by rw [Writable, ← hc]; exact hw)

/-- What every instruction keeps. -/
structure Kept (s t : State) : Prop where
  cfg   : t.cfg = s.cfg
  run   : t.run = s.run
  trace : t.trace = s.trace
  b4    : t.p.b4 = s.p.b4
  b5    : t.p.b5 = s.p.b5
  mem   : Written s s.mem t.mem

theorem Kept.refl (s : State) : Kept s s := ⟨rfl, rfl, rfl, rfl, rfl, .refl⟩

theorem Kept.trans {s t u : State} (h : Kept s t) (h' : Kept t u) : Kept s u :=
  ⟨h'.cfg.trans h.cfg, h'.run.trans h.run, h'.trace.trans h.trace, h'.b4.trans h.b4, h'.b5.trans h.b5,
    h.mem.trans (h'.mem.congr h.cfg)⟩

/-- A state that differs in registers and in the six program-visible flags only. -/
theorem Kept.of_registers {s t : State} (hc : t.cfg = s.cfg) (hr : t.run = s.run) (ht : t.trace = s.trace)
    (h4 : t.p.b4 = s.p.b4) (h5 : t.p.b5 = s.p.b5) (hm : t.mem = s.mem) : Kept s t :=
  ⟨hc, hr, ht, h4, h5, hm ▸ .refl⟩

/-! ### The shared operations -/

theorem memWrite_kept {s t : State} {a : Addr} {v : Byte} (h : memWrite s a v = .ok t) : Kept s t := by
  obtain ⟨hw, rfl⟩ := memWrite_ok_iff.1 h
  exact ⟨rfl, rfl, rfl, rfl, rfl, .write a v .refl hw⟩

theorem push_kept {s t : State} {v : Byte} (h : push v s = .ok t) : Kept s t := by
  obtain ⟨hw, rfl⟩ := push_ok_iff.1 h
  exact ⟨rfl, rfl, rfl, rfl, rfl, .write _ v .refl hw⟩

theorem push16_kept {s t : State} {w : Addr} (h : push16 w s = .ok t) : Kept s t := by
  obtain ⟨t1, h1, h2⟩ := bind_eq_ok_iff.1 h
  exact (push_kept h1).trans (push_kept h2)

theorem pull_kept {s t : State} {v : Byte} (h : pull s = .ok (v, t)) : Kept s t := by
  obtain ⟨-, rfl⟩ := pull_ok_iff.1 h
  exact .of_registers rfl rfl rfl rfl rfl rfl

theorem pull16_kept {s t : State} {w : Addr} (h : pull16 s = .ok (w, t)) : Kept s t := by
  obtain ⟨-, rfl⟩ := pull16_ok_iff.1 h
  exact .of_registers rfl rfl rfl rfl rfl rfl

theorem enterBreak_kept {s t : State} (h : enterBreak s = .ok t) : Kept s t := by
  obtain ⟨s1, h1, h⟩ := bind_eq_ok_iff.1 h
  obtain ⟨s2, h2, h⟩ := bind_eq_ok_iff.1 h
  obtain ⟨lo, -, h⟩ := bind_eq_ok_iff.1 h
  obtain ⟨hi, -, h⟩ := bind_eq_ok_iff.1 h
  cases pure_eq_ok_iff.1 h
  exact ((push16_kept h1).trans (push_kept h2)).trans (.of_registers rfl rfl rfl rfl rfl rfl)

theorem returnFromBreak_kept {s t : State} (h : returnFromBreak s = .ok t) : Kept s t := by
  obtain ⟨⟨b, s1⟩, h1, h⟩ := bind_eq_ok_iff.1 h
  obtain ⟨⟨w, s3⟩, h2, h⟩ := bind_eq_ok_iff.1 h
  cases pure_eq_ok_iff.1 h
  have hp : Kept s1 (s1.setP (s1.p.pulled b)) := .of_registers rfl rfl rfl rfl rfl rfl
  exact (((pull_kept h1).trans hp).trans (pull16_kept h2)).trans (.of_registers rfl rfl rfl rfl rfl rfl)

/-- The frame of an instruction keeps what its semantics keeps. -/
theorem execute_kept {m : Mnemonic} {o : Operand} {sem : State → Effect} {s u : State}
    (h : execute m o sem s = .next u) (hs : ∀ s t res, sem s = .ok (t, res) → Kept s t) : Kept s u := by
  obtain ⟨t, res, ht, rfl⟩ := execute_next_iff.1 h
  have h0 : Kept s (s.advancePc o.length) := .of_registers rfl rfl rfl rfl rfl rfl
  have h1 : Kept t (t.setP (t.p.update m.declaredFlags res)) := by
    cases res <;> exact .of_registers rfl rfl rfl rfl rfl rfl
  exact (h0.trans (hs _ t res ht)).trans h1

theorem pureEffect_kept {m : Mnemonic} {o : Operand} {e : State → State × Option Byte} {s u : State}
    (h : execute m o (pureEffect e) s = .next u) (he : ∀ s, Kept s (e s).1) : Kept s u :=
  execute_kept h (fun s t res ht => by
    have e : e s = (t, res) := Except.ok.inj ht
    exact (congrArg (fun r => Kept s r.1) e).mp (he s))

theorem reading_kept {m : Mnemonic} {o : Operand} {src : Source} {e : Byte → State → State × Option Byte} {s u : State}
    (h : execute m o (reading src e) s = .next u) (he : ∀ v s, Kept s (e v s).1) : Kept s u :=
  execute_kept h (fun s t res ht => by
    obtain ⟨v, -, h⟩ := bind_eq_ok_iff.1 ht
    exact (congrArg (fun r => Kept s r.1) (pure_eq_ok_iff.1 h)).mp (he v s))

theorem modifying_kept {m : Mnemonic} {o : Operand} {pl : Place} {alu : Byte → Flags → Byte × Flags} {s u : State}
    (h : execute m o (modifying pl alu) s = .next u) (ha : ∀ v p, (alu v p).2.b4 = p.b4 ∧ (alu v p).2.b5 = p.b5) :
    Kept s u :=
  execute_kept h (fun s t res ht => by
    cases pl with
    | accumulator =>
      rw [modifying_accumulator] at ht
      cases ht
      exact .of_registers rfl rfl rfl (ha _ _).1 (ha _ _).2 rfl
    | ea m =>
      obtain ⟨ea, v, -, -, hw, rfl, rfl⟩ := modifying_ea_ok_iff.1 ht
      exact ⟨rfl, rfl, rfl, (ha _ _).1, (ha _ _).2, .write ea _ .refl hw⟩)

theorem load_kept {m : Mnemonic} {set : State → Byte → State} {src : Source} {s u : State}
    (h : load m set src s = .next u) (hs : ∀ s v, Kept s (set s v)) : Kept s u := reading_kept h (fun v s => hs s v)

theorem store_kept {m : Mnemonic} {get : State → Byte} {dst : EaOperand} {s u : State}
    (h : store m get dst s = .next u) : Kept s u :=
  execute_kept h (fun s t res ht => by
    obtain ⟨ea, -, ht⟩ := bind_eq_ok_iff.1 ht
    obtain ⟨t', hw, ht⟩ := bind_eq_ok_iff.1 ht
    cases pure_eq_ok_iff.1 ht
    exact memWrite_kept hw)

theorem branch_kept {m : Mnemonic} {cond : Flags → Bool} {off : Byte} {s u : State}
    (h : branch m cond off s = .next u) : Kept s u :=
  execute_kept h (fun s t res ht => by
    obtain ⟨ea, -, ht⟩ := bind_eq_ok_iff.1 ht
    cases pure_eq_ok_iff.1 ht
    split <;> exact .of_registers rfl rfl rfl rfl rfl rfl)

theorem jmp_kept {m : EaOperand} {s u : State} (h : jmp m s = .next u) : Kept s u :=
  execute_kept h (fun s t res ht => by
    obtain ⟨ea, -, ht⟩ := bind_eq_ok_iff.1 ht
    cases pure_eq_ok_iff.1 ht
    exact .of_registers rfl rfl rfl rfl rfl rfl)

theorem callSubroutine_kept {m : EaOperand} {s u : State} (h : callSubroutine m s = .next u) : Kept s u :=
  execute_kept h (fun s t res ht => by
    obtain ⟨ea, -, ht⟩ := bind_eq_ok_iff.1 ht
    obtain ⟨t', hp, ht⟩ := bind_eq_ok_iff.1 ht
    cases pure_eq_ok_iff.1 ht
    exact (push16_kept hp).trans (.of_registers rfl rfl rfl rfl rfl rfl))

theorem returnFromSubroutine_kept {s u : State} (h : returnFromSubroutine s = .next u) : Kept s u :=
  execute_kept h (fun s t res ht => by
    obtain ⟨⟨w, t'⟩, hp, ht⟩ := bind_eq_ok_iff.1 ht
    cases pure_eq_ok_iff.1 ht
    exact (pull16_kept hp).trans (.of_registers rfl rfl rfl rfl rfl rfl))

theorem rti_kept {s u : State} (h : rti s = .next u) : Kept s u :=
  execute_kept h (fun s t res ht => by
    obtain ⟨t', hp, ht⟩ := bind_eq_ok_iff.1 ht
    cases pure_eq_ok_iff.1 ht
    exact returnFromBreak_kept hp)

theorem brk_kept {s u : State} (h : brk s = .next u) : Kept s u := by
  unfold brk at h
  cases hb : s.cfg.brkMode with
  | refuse => simp [hb] at h
  | vector =>
    rw [hb] at h
    exact execute_kept h (fun s t res ht => by
      obtain ⟨t', hp, ht⟩ := bind_eq_ok_iff.1 ht
      cases pure_eq_ok_iff.1 ht
      exact enterBreak_kept hp)

theorem pushing_kept {m : Mnemonic} {get : State → Byte} {s u : State} (h : pushing m get s = .next u) : Kept s u :=
  execute_kept h (fun s t res ht => by
    obtain ⟨t', hp, ht⟩ := bind_eq_ok_iff.1 ht
    cases pure_eq_ok_iff.1 ht
    exact push_kept hp)

theorem pulling_kept {m : Mnemonic} {e : Byte → State → State × Option Byte} {s u : State}
    (h : pulling m e s = .next u) (he : ∀ v s, Kept s (e v s).1) : Kept s u :=
  execute_kept h (fun s t res ht => by
    obtain ⟨⟨b, t'⟩, hp, ht⟩ := bind_eq_ok_iff.1 ht
    exact (pull_kept hp).trans ((congrArg (fun r => Kept t' r.1) (pure_eq_ok_iff.1 ht)).mp (he _ _)))

theorem lda_kept {src : Source} {s u : State} (h : lda src s = .next u) : Kept s u :=
  load_kept h (fun _ _ => .of_registers rfl rfl rfl rfl rfl rfl)
theorem ldx_kept {src : Source} {s u : State} (h : ldx src s = .next u) : Kept s u :=
  load_kept h (fun _ _ => .of_registers rfl rfl rfl rfl rfl rfl)
theorem ldy_kept {src : Source} {s u : State} (h : ldy src s = .next u) : Kept s u :=
  load_kept h (fun _ _ => .of_registers rfl rfl rfl rfl rfl rfl)
theorem logicAnd_kept {src : Source} {s u : State} (h : logicAnd src s = .next u) : Kept s u :=
  reading_kept h (fun _ _ => .of_registers rfl rfl rfl rfl rfl rfl)
theorem logicOra_kept {src : Source} {s u : State} (h : logicOra src s = .next u) : Kept s u :=
  reading_kept h (fun _ _ => .of_registers rfl rfl rfl rfl rfl rfl)
theorem logicEor_kept {src : Source} {s u : State} (h : logicEor src s = .next u) : Kept s u :=
  reading_kept h (fun _ _ => .of_registers rfl rfl rfl rfl rfl rfl)
theorem adc_kept {src : Source} {s u : State} (h : adc src s = .next u) : Kept s u :=
  reading_kept h (fun _ _ => .of_registers rfl rfl rfl rfl rfl rfl)
theorem sbc_kept {src : Source} {s u : State} (h : sbc src s = .next u) : Kept s u :=
  reading_kept h (fun _ _ => .of_registers rfl rfl rfl rfl rfl rfl)
theorem compareA_kept {src : Source} {s u : State} (h : compareA src s = .next u) : Kept s u :=
  reading_kept h (fun _ _ => .of_registers rfl rfl rfl rfl rfl rfl)
theorem compareX_kept {src : Source} {s u : State} (h : compareX src s = .next u) : Kept s u :=
  reading_kept h (fun _ _ => .of_registers rfl rfl rfl rfl rfl rfl)
theorem compareY_kept {src : Source} {s u : State} (h : compareY src s = .next u) : Kept s u :=
  reading_kept h (fun _ _ => .of_registers rfl rfl rfl rfl rfl rfl)
theorem bit_kept {src : Source} {s u : State} (h : bit src s = .next u) : Kept s u :=
  reading_kept h (fun _ _ => .of_registers rfl rfl rfl rfl rfl rfl)
theorem sta_kept {m : EaOperand} {s u : State} (h : sta m s = .next u) : Kept s u := store_kept h
theorem stx_kept {m : EaOperand} {s u : State} (h : stx m s = .next u) : Kept s u := store_kept h
theorem sty_kept {m : EaOperand} {s u : State} (h : sty m s = .next u) : Kept s u := store_kept h
theorem inc_kept {pl : Place} {s u : State} (h : inc pl s = .next u) : Kept s u :=
  modifying_kept h (fun _ _ => ⟨rfl, rfl⟩)
theorem dec_kept {pl : Place} {s u : State} (h : dec pl s = .next u) : Kept s u :=
  modifying_kept h (fun _ _ => ⟨rfl, rfl⟩)
theorem asl_kept {pl : Place} {s u : State} (h : asl pl s = .next u) : Kept s u :=
  modifying_kept h (fun _ _ => ⟨rfl, rfl⟩)
theorem lsr_kept {pl : Place} {s u : State} (h : lsr pl s = .next u) : Kept s u :=
  modifying_kept h (fun _ _ => ⟨rfl, rfl⟩)
theorem rol_kept {pl : Place} {s u : State} (h : rol pl s = .next u) : Kept s u :=
  modifying_kept h (fun _ _ => ⟨rfl, rfl⟩)
theorem ror_kept {pl : Place} {s u : State} (h : ror pl s = .next u) : Kept s u :=
  modifying_kept h (fun _ _ => ⟨rfl, rfl⟩)

/-- What every instruction keeps when it completes: the parameters, the run status, the trace, B4 and B5, and all of
memory but bytes at writable addresses. -/
theorem exec_kept {i : Instr} {s t : State} (h : exec i s = .next t) : Kept s t := by
  cases i
  case ldaImmediate | ldaZeroPage | ldaZeroPageX | ldaAbsolute | ldaAbsoluteX | ldaAbsoluteY |
      ldaIndexedIndirect | ldaIndirectIndexed => simp only [exec] at h; exact lda_kept h
  case ldxImmediate | ldxZeroPage | ldxZeroPageY | ldxAbsolute | ldxAbsoluteY => simp only [exec] at h; exact ldx_kept h
  case ldyImmediate | ldyZeroPage | ldyZeroPageX | ldyAbsolute | ldyAbsoluteX => simp only [exec] at h; exact ldy_kept h
  case staZeroPage | staZeroPageX | staAbsolute | staAbsoluteX | staAbsoluteY | staIndexedIndirect |
      staIndirectIndexed => simp only [exec] at h; exact sta_kept h
  case stxZeroPage | stxZeroPageY | stxAbsolute => simp only [exec] at h; exact stx_kept h
  case styZeroPage | styZeroPageX | styAbsolute => simp only [exec] at h; exact sty_kept h
  case tax => simp only [exec] at h; exact pureEffect_kept h (fun _ => .of_registers rfl rfl rfl rfl rfl rfl)
  case tay => simp only [exec] at h; exact pureEffect_kept h (fun _ => .of_registers rfl rfl rfl rfl rfl rfl)
  case txa => simp only [exec] at h; exact pureEffect_kept h (fun _ => .of_registers rfl rfl rfl rfl rfl rfl)
  case tya => simp only [exec] at h; exact pureEffect_kept h (fun _ => .of_registers rfl rfl rfl rfl rfl rfl)
  case tsx => simp only [exec] at h; exact pureEffect_kept h (fun _ => .of_registers rfl rfl rfl rfl rfl rfl)
  case txs => simp only [exec] at h; exact pureEffect_kept h (fun _ => .of_registers rfl rfl rfl rfl rfl rfl)
  case andImmediate | andZeroPage | andZeroPageX | andAbsolute | andAbsoluteX | andAbsoluteY |
      andIndexedIndirect | andIndirectIndexed => simp only [exec] at h; exact logicAnd_kept h
  case oraImmediate | oraZeroPage | oraZeroPageX | oraAbsolute | oraAbsoluteX | oraAbsoluteY |
      oraIndexedIndirect | oraIndirectIndexed => simp only [exec] at h; exact logicOra_kept h
  case eorImmediate | eorZeroPage | eorZeroPageX | eorAbsolute | eorAbsoluteX | eorAbsoluteY |
      eorIndexedIndirect | eorIndirectIndexed => simp only [exec] at h; exact logicEor_kept h
  case adcImmediate | adcZeroPage | adcZeroPageX | adcAbsolute | adcAbsoluteX | adcAbsoluteY |
      adcIndexedIndirect | adcIndirectIndexed => simp only [exec] at h; exact adc_kept h
  case sbcImmediate | sbcZeroPage | sbcZeroPageX | sbcAbsolute | sbcAbsoluteX | sbcAbsoluteY |
      sbcIndexedIndirect | sbcIndirectIndexed => simp only [exec] at h; exact sbc_kept h
  case cmpImmediate | cmpZeroPage | cmpZeroPageX | cmpAbsolute | cmpAbsoluteX | cmpAbsoluteY |
      cmpIndexedIndirect | cmpIndirectIndexed => simp only [exec] at h; exact compareA_kept h
  case cpxImmediate | cpxZeroPage | cpxAbsolute => simp only [exec] at h; exact compareX_kept h
  case cpyImmediate | cpyZeroPage | cpyAbsolute => simp only [exec] at h; exact compareY_kept h
  case bitZeroPage | bitAbsolute => simp only [exec] at h; exact bit_kept h
  case inx => simp only [exec] at h; exact pureEffect_kept h (fun _ => .of_registers rfl rfl rfl rfl rfl rfl)
  case dex => simp only [exec] at h; exact pureEffect_kept h (fun _ => .of_registers rfl rfl rfl rfl rfl rfl)
  case iny => simp only [exec] at h; exact pureEffect_kept h (fun _ => .of_registers rfl rfl rfl rfl rfl rfl)
  case dey => simp only [exec] at h; exact pureEffect_kept h (fun _ => .of_registers rfl rfl rfl rfl rfl rfl)
  case incZeroPage | incZeroPageX | incAbsolute | incAbsoluteX => simp only [exec] at h; exact inc_kept h
  case decZeroPage | decZeroPageX | decAbsolute | decAbsoluteX => simp only [exec] at h; exact dec_kept h
  case aslAccumulator | aslZeroPage | aslZeroPageX | aslAbsolute | aslAbsoluteX => simp only [exec] at h; exact asl_kept h
  case lsrAccumulator | lsrZeroPage | lsrZeroPageX | lsrAbsolute | lsrAbsoluteX => simp only [exec] at h; exact lsr_kept h
  case rolAccumulator | rolZeroPage | rolZeroPageX | rolAbsolute | rolAbsoluteX => simp only [exec] at h; exact rol_kept h
  case rorAccumulator | rorZeroPage | rorZeroPageX | rorAbsolute | rorAbsoluteX => simp only [exec] at h; exact ror_kept h
  case pha => simp only [exec] at h; exact pushing_kept h
  case php => simp only [exec] at h; exact pushing_kept h
  case pla => simp only [exec] at h; exact pulling_kept h (fun _ _ => .of_registers rfl rfl rfl rfl rfl rfl)
  case plp => simp only [exec] at h; exact pulling_kept h (fun _ _ => .of_registers rfl rfl rfl rfl rfl rfl)
  case jmpAbsolute | jmpIndirect => simp only [exec] at h; exact jmp_kept h
  case jsr => simp only [exec] at h; exact callSubroutine_kept h
  case rts => simp only [exec] at h; exact returnFromSubroutine_kept h
  case rti => simp only [exec] at h; exact rti_kept h
  case brk => simp only [exec] at h; exact brk_kept h
  case bcc => simp only [exec] at h; exact branch_kept h
  case bcs => simp only [exec] at h; exact branch_kept h
  case beq => simp only [exec] at h; exact branch_kept h
  case bne => simp only [exec] at h; exact branch_kept h
  case bmi => simp only [exec] at h; exact branch_kept h
  case bpl => simp only [exec] at h; exact branch_kept h
  case bvc => simp only [exec] at h; exact branch_kept h
  case bvs => simp only [exec] at h; exact branch_kept h
  case clc => simp only [exec] at h; exact pureEffect_kept h (fun _ => .of_registers rfl rfl rfl rfl rfl rfl)
  case sec => simp only [exec] at h; exact pureEffect_kept h (fun _ => .of_registers rfl rfl rfl rfl rfl rfl)
  case cli => simp only [exec] at h; exact pureEffect_kept h (fun _ => .of_registers rfl rfl rfl rfl rfl rfl)
  case sei => simp only [exec] at h; exact pureEffect_kept h (fun _ => .of_registers rfl rfl rfl rfl rfl rfl)
  case cld => simp only [exec] at h; exact pureEffect_kept h (fun _ => .of_registers rfl rfl rfl rfl rfl rfl)
  case sed => simp only [exec] at h; exact pureEffect_kept h (fun _ => .of_registers rfl rfl rfl rfl rfl rfl)
  case clv => simp only [exec] at h; exact pureEffect_kept h (fun _ => .of_registers rfl rfl rfl rfl rfl rfl)
  case nop => simp only [exec] at h; exact pureEffect_kept h (fun _ => .of_registers rfl rfl rfl rfl rfl rfl)

/-! ### What follows for memory -/

/-- An address that cannot be written keeps its byte. -/
theorem Written.read_eq {s : State} {m m' : Memory} (h : Written s m m') {a : Addr} (ha : ¬ Writable s a) :
    Memory.read m' a.toNat = Memory.read m a.toNat := by
  induction h with
  | refl => rfl
  | write b v _ hw ih =>
    have hne : a.toNat ≠ b.toNat := fun e => ha (BitVec.eq_of_toNat_eq e ▸ hw)
    rw [Memory.read_write_other _ _ hne, ih]

/-- Writes keep the canonical form. -/
theorem Written.wf {s : State} {m m' : Memory} (h : Written s m m') (hm : Memory.wf m) : Memory.wf m' := by
  induction h with
  | refl => exact hm
  | write b v _ _ ih => exact Memory.wf_write ih b.isLt v

/-- Writes leave every byte inside an owner. -/
theorem Written.owned {s : State} {m m' : Memory} (h : Written s m m') (hm : CellsOwned s.cfg.owners m) :
    CellsOwned s.cfg.owners m' := by
  induction h with
  | refl => exact hm
  | write b v _ hw ih =>
    intro c hc
    rcases Memory.mem_write hc with hc | ⟨rfl, -⟩
    · exact ih c hc
    · obtain ⟨o, ho, -⟩ := hw
      obtain ⟨h1, h2⟩ := ownerOf_covers ho
      refine ⟨o, h1, ?_⟩
      simpa using h2

end Sys2Proof.Machine
end

