-- ==== Sys2Proof/Laws/Meaning.lean ====
section
/-! SUPPORT. Everything a shared meaning can do when it completes: one lemma for each, which a proof cites instead of
unfolding it. `s.advancePc n` is the state after the PC advance (R82). -/

namespace Sys2Proof.Machine

/-! ### Operand access -/

theorem getData_immediate_iff {b v : Byte} {s : State} : Source.getData (.immediate b) s = .ok v ↔ v = b := by
  simp [Source.getData, eq_comm]

/-- A memory operand is the byte at the effective address (R114). -/
theorem getData_ea_iff {m : EaOperand} {s : State} {v : Byte} :
    Source.getData (.ea m) s = .ok v ↔ ∃ ea, effectiveAddr m s = .ok ea ∧ Reads s ea v := by
  simp only [Source.getData, bind_eq_ok_iff, memRead_ok_iff]

/-! ### Reading instructions -/

theorem reading_next_iff {m : Mnemonic} {src : Source} {e : Byte → State → State × Option Byte} {s u : State} :
    execute m src.operand (reading src e) s = .next u ↔
      ∃ v, src.getData (s.advancePc src.operand.length) = .ok v ∧
        u = (e v (s.advancePc src.operand.length)).1.setP
          ((e v (s.advancePc src.operand.length)).1.p.update m.declaredFlags
            (e v (s.advancePc src.operand.length)).2) := by
  simp only [execute_next_iff, reading, bind_eq_ok_iff, pure_eq_ok_iff]
  constructor
  · rintro ⟨t, res, ⟨v, hv, h⟩, rfl⟩
    exact ⟨v, hv, by rw [h]⟩
  · rintro ⟨v, hv, rfl⟩
    exact ⟨_, _, ⟨v, hv, rfl⟩, rfl⟩

/-- An instruction that makes no memory access always completes. -/
theorem pureEffect_next {m : Mnemonic} {o : Operand} {e : State → State × Option Byte} (s : State) :
    execute m o (pureEffect e) s =
      .next ((e (s.advancePc o.length)).1.setP
        ((e (s.advancePc o.length)).1.p.update m.declaredFlags (e (s.advancePc o.length)).2)) := rfl

/-! ### Stores and read-modify-write -/

/-- A store writes its register at the effective address, if it can be written (R114). -/
theorem store_next_iff {m : Mnemonic} {get : State → Byte} {dst : EaOperand} {s u : State} :
    store m get dst s = .next u ↔
      ∃ ea, effectiveAddr dst (s.advancePc (Operand.ea dst).length) = .ok ea ∧ Writable s ea ∧
        u = (s.advancePc (Operand.ea dst).length).setMem
          (Memory.write s.mem ea.toNat (get (s.advancePc (Operand.ea dst).length))) := by
  simp only [store, execute_next_iff, bind_eq_ok_iff, pure_eq_ok_iff, memWrite_ok_iff, Prod.mk.injEq]
  constructor
  · rintro ⟨_, _, ⟨ea, he, t, ⟨hw, rfl⟩, rfl, rfl⟩, rfl⟩
    exact ⟨ea, he, hw, rfl⟩
  · rintro ⟨ea, he, hw, rfl⟩
    exact ⟨_, _, ⟨ea, he, _, ⟨hw, rfl⟩, rfl, rfl⟩, rfl⟩

/-- A read-modify-write on memory reads one byte and writes the new value at the same address (R160). -/
theorem modifying_next_iff {mn : Mnemonic} {m : EaOperand} {alu : Byte → Flags → Byte × Flags} {s u : State} :
    execute mn (Place.ea m).operand (modifying (.ea m) alu) s = .next u ↔
      ∃ ea v, effectiveAddr m (s.advancePc (Operand.ea m).length) = .ok ea ∧ Reads s ea v ∧ Writable s ea ∧
        u = ((s.advancePc (Operand.ea m).length).setMem (Memory.write s.mem ea.toNat (alu v s.p).1)).setP
          ((alu v s.p).2.update mn.declaredFlags (some (alu v s.p).1)) := by
  simp only [execute_next_iff, modifying_ea_ok_iff]
  constructor
  · rintro ⟨_, _, ⟨ea, v, he, hv, hw, rfl, rfl⟩, rfl⟩
    exact ⟨ea, v, he, hv, hw, rfl⟩
  · rintro ⟨ea, v, he, hv, hw, rfl⟩
    exact ⟨_, _, ⟨ea, v, he, hv, hw, rfl, rfl⟩, rfl⟩

/-- A read-modify-write on the accumulator always completes. -/
theorem modifying_accumulator_next (mn : Mnemonic) (alu : Byte → Flags → Byte × Flags) (s : State) :
    execute mn Place.accumulator.operand (modifying .accumulator alu) s =
      .next (((s.advancePc 0).setA (alu s.a s.p).1).setP ((alu s.a s.p).2.update mn.declaredFlags (some (alu s.a s.p).1))) :=
  rfl

/-! ### Stack -/

theorem pushing_next_iff {m : Mnemonic} {get : State → Byte} {s u : State} :
    pushing m get s = .next u ↔ Writable s (StackAt s.sp) ∧
      u = ((s.advancePc 0).setMem (Memory.write s.mem (StackAt s.sp).toNat (get (s.advancePc 0)))).setSp
        (s.sp - 1#8) := by
  simp only [pushing, execute_next_iff, bind_eq_ok_iff, pure_eq_ok_iff, push_ok_iff, Prod.mk.injEq]
  constructor
  · rintro ⟨_, _, ⟨t, ⟨hw, rfl⟩, rfl, rfl⟩, rfl⟩
    exact ⟨hw, rfl⟩
  · rintro ⟨hw, rfl⟩
    exact ⟨_, _, ⟨_, ⟨hw, rfl⟩, rfl, rfl⟩, rfl⟩

theorem pulling_next_iff {m : Mnemonic} {e : Byte → State → State × Option Byte} {s u : State} :
    pulling m e s = .next u ↔ ∃ b, Reads s (StackAt (s.sp + 1#8)) b ∧
      u = (e b ((s.advancePc 0).setSp (s.sp + 1#8))).1.setP
        ((e b ((s.advancePc 0).setSp (s.sp + 1#8))).1.p.update m.declaredFlags
          (e b ((s.advancePc 0).setSp (s.sp + 1#8))).2) := by
  simp only [pulling, execute_next_iff, bind_eq_ok_iff, pure_eq_ok_iff, Prod.exists, pull_ok_iff]
  constructor
  · rintro ⟨t, res, ⟨b, _, ⟨hb, rfl⟩, h⟩, rfl⟩
    have h' : e b ((s.advancePc 0).setSp (s.sp + 1#8)) = (t, res) := h
    exact ⟨b, hb, by rw [h']⟩
  · rintro ⟨b, hb, rfl⟩
    exact ⟨_, _, ⟨b, _, ⟨hb, rfl⟩, rfl⟩, rfl⟩

/-! ### Control transfer -/

theorem jmp_next_iff {m : EaOperand} {s u : State} :
    jmp m s = .next u ↔ ∃ ea, effectiveAddr m (s.advancePc (Operand.ea m).length) = .ok ea ∧ u = s.setPc ea := by
  simp only [jmp, execute_next_iff, bind_eq_ok_iff, pure_eq_ok_iff, Prod.mk.injEq]
  constructor
  · rintro ⟨_, _, ⟨ea, he, rfl, rfl⟩, rfl⟩
    exact ⟨ea, he, rfl⟩
  · rintro ⟨ea, he, rfl⟩
    exact ⟨_, _, ⟨ea, he, rfl, rfl⟩, rfl⟩

/-- JSR pushes two bytes and jumps (R191). -/
theorem callSubroutine_next_iff {w : Addr} {s u : State} :
    callSubroutine (.absolute w) s = .next u ↔ Writable s (StackAt s.sp) ∧ Writable s (StackAt (s.sp - 1#8)) ∧
      u = ((s.setPc w).setMem
        (Memory.write (Memory.write s.mem (StackAt s.sp).toNat (highByte ((s.advancePc 2).pc - returnBias s)))
          (StackAt (s.sp - 1#8)).toNat (lowByte ((s.advancePc 2).pc - returnBias s)))).setSp (s.sp - 1#8 - 1#8) := by
  simp only [callSubroutine, execute_next_iff, bind_eq_ok_iff, pure_eq_ok_iff, push16_ok_iff, Prod.mk.injEq]
  constructor
  · rintro ⟨_, _, ⟨ea, he, t, ⟨h1, h2, rfl⟩, rfl, rfl⟩, rfl⟩
    cases he
    exact ⟨h1, h2, rfl⟩
  · rintro ⟨h1, h2, rfl⟩
    exact ⟨_, _, ⟨w, rfl, _, ⟨h1, h2, rfl⟩, rfl, rfl⟩, rfl⟩

/-- RTS pulls two bytes and adds the bias (R192). -/
theorem returnFromSubroutine_next_iff {s u : State} :
    returnFromSubroutine s = .next u ↔
      ∃ w, PointerIs s (StackAt (s.sp + 1#8)) (StackAt (s.sp + 1#8 + 1#8)) w ∧
        u = (s.setPc (w + returnBias s)).setSp (s.sp + 1#8 + 1#8) := by
  simp only [returnFromSubroutine, execute_next_iff, bind_eq_ok_iff, pure_eq_ok_iff, Prod.exists, pull16_ok_iff,
    Prod.mk.injEq]
  constructor
  · rintro ⟨_, _, ⟨w, _, ⟨hw, rfl⟩, rfl, rfl⟩, rfl⟩
    exact ⟨w, hw, rfl⟩
  · rintro ⟨w, hw, rfl⟩
    exact ⟨_, _, ⟨w, _, ⟨hw, rfl⟩, rfl, rfl⟩, rfl⟩

theorem rti_eq (s : State) :
    rti s = match returnFromBreak (s.advancePc 0) with
      | .error f => .fault f
      | .ok t => .next t := by
  show (match (do let t ← returnFromBreak (s.advancePc 0); return (t, none) : Effect) with
    | .error f => Host.Outcome.fault f
    | .ok (t, res) => .next (t.setP (t.p.update Mnemonic.RTI.declaredFlags res))) = _
  cases returnFromBreak (s.advancePc 0) <;> rfl

theorem brk_refuse {s : State} (h : s.cfg.brkMode = .refuse) : brk s = .refused (.brkRefused 0x00#8 s.pc) := by
  simp [brk, h]

theorem brk_vector {s : State} (h : s.cfg.brkMode = .vector) :
    brk s = match enterBreak (s.advancePc 0) with
      | .error f => .fault f
      | .ok t => .next t := by
  have e : brk s = (match (do let t ← enterBreak (s.advancePc 0); return (t, none) : Effect) with
    | .error f => Host.Outcome.fault f
    | .ok (t, res) => .next (t.setP (t.p.update Mnemonic.BRK.declaredFlags res))) := by
    unfold brk
    rw [h]
    rfl
  rw [e]
  cases enterBreak (s.advancePc 0) <;> rfl

/-- A branch always completes; only PC depends on the condition (R195). -/
theorem branch_eq (m : Mnemonic) (cond : Flags → Bool) (offset : Byte) (s : State) :
    branch m cond offset s =
      .next (s.setPc (if cond s.p then (s.advancePc 1).pc + sext16 offset else (s.advancePc 1).pc)) := by
  cases hc : cond s.p <;>
    simp [branch, execute, effectiveAddr, bind, Except.bind, pure, Except.pure, State.advancePc, hc] <;> rfl

end Sys2Proof.Machine
end

