-- ==== Sys2Proof/Tests/Slice0.lean ====
section
/-! SUPPORT. The model's own tests: the checks refuse ill-formed terms, written-out bytes decode, and one step each on
vectors of spec/95. -/

namespace Sys2Proof.Tests

open Sys2Proof.Machine

/-! ### WellFormed (R6, R36, R42, R224) -/

theorem test_owner_reversed : ¬ Owner.WellFormed ⟨0x0800, 0x07FF, .ram⟩ := by decide
theorem test_owner_single : Owner.WellFormed ⟨0x0800, 0x0800, .ram⟩ := by decide
theorem test_owners_overlap : ¬ OwnerMapWellFormed [⟨0x0000, 0x0800, .ram⟩, ⟨0x0800, 0xFFFF, .rom⟩] := by decide
theorem test_owners_adjacent : OwnerMapWellFormed [⟨0x8000, 0xFFFF, .rom⟩, ⟨0x0000, 0x7FFF, .ram⟩] := by decide
theorem test_owners_nested : ¬ OwnerMapWellFormed [⟨0x0000, 0xFFFF, .ram⟩, ⟨0x2000, 0x2007, .ppu⟩] := by decide
theorem test_cells_unsorted : ¬ CellsCanonical 0 [(2, 0x01), (1, 0x01)] := by decide
theorem test_cells_repeated : ¬ CellsCanonical 0 [(2, 0x01), (2, 0x03)] := by decide
theorem test_cells_blank : ¬ CellsCanonical 0 [(2, 0x00)] := by decide
theorem test_cells_outside : ¬ CellsCanonical 0 [(65536, 0x01)] := by decide
theorem test_cells_last : CellsCanonical 0 [(0, 0x01), (65535, 0x01)] := by decide
theorem test_cells_unowned : ¬ CellsOwned [⟨0x0000, 0x07FF, .ram⟩] [(0x0800, 0x01)] := by decide
theorem test_config_refused :
    ¬ Config.WellFormed { Config.default with owners := [], initialMemory := [(0, 0x01)] } := by decide
theorem test_config_default : Config.default.WellFormed := by decide
theorem test_opcodes_duplicate : ¬ OpcodesDistinct [0xA9, 0x8D, 0xA9] := by decide
theorem test_opcodes_of_table : OpcodesDistinct (opcodeTable.map DecodeRow.opcode) := opcodeTable_opcodesDistinct
theorem test_reset_memory_wf : Memory.wf State.reset.mem := by decide

/-! ### Decoding -/

/-- Every pair's bytes decode to its instruction, with nothing left over. -/
abbrev AllDecode (l : List (List Byte × Instr)) : Prop :=
  l.map (fun q => (decode q.1).toOption) = l.map fun q => some (q.2, [])

/-- R67, R61: the opcode, then the operand bytes 0x34 or 0x34 0x12, low byte first. -/
theorem test_decode_loads : AllDecode (
    [([0xA1, 0x34], .ldaIndexedIndirect 0x34), ([0xA5, 0x34], .ldaZeroPage 0x34), ([0xA9, 0x34], .ldaImmediate 0x34),
      ([0xAD, 0x34, 0x12], .ldaAbsolute 0x1234), ([0xB1, 0x34], .ldaIndirectIndexed 0x34),
      ([0xB5, 0x34], .ldaZeroPageX 0x34), ([0xB9, 0x34, 0x12], .ldaAbsoluteY 0x1234),
      ([0xBD, 0x34, 0x12], .ldaAbsoluteX 0x1234), ([0xA2, 0x34], .ldxImmediate 0x34),
      ([0xA6, 0x34], .ldxZeroPage 0x34), ([0xAE, 0x34, 0x12], .ldxAbsolute 0x1234),
      ([0xB6, 0x34], .ldxZeroPageY 0x34), ([0xBE, 0x34, 0x12], .ldxAbsoluteY 0x1234),
      ([0xA0, 0x34], .ldyImmediate 0x34), ([0xA4, 0x34], .ldyZeroPage 0x34),
      ([0xAC, 0x34, 0x12], .ldyAbsolute 0x1234), ([0xB4, 0x34], .ldyZeroPageX 0x34),
      ([0xBC, 0x34, 0x12], .ldyAbsoluteX 0x1234)]) := by
  rfl

/-- R67, R61: the opcode, then the operand bytes 0x34 or 0x34 0x12, low byte first. -/
theorem test_decode_stores_and_transfers : AllDecode (
    [([0x81, 0x34], .staIndexedIndirect 0x34), ([0x85, 0x34], .staZeroPage 0x34),
      ([0x8D, 0x34, 0x12], .staAbsolute 0x1234), ([0x91, 0x34], .staIndirectIndexed 0x34),
      ([0x95, 0x34], .staZeroPageX 0x34), ([0x99, 0x34, 0x12], .staAbsoluteY 0x1234),
      ([0x9D, 0x34, 0x12], .staAbsoluteX 0x1234), ([0x86, 0x34], .stxZeroPage 0x34),
      ([0x8E, 0x34, 0x12], .stxAbsolute 0x1234), ([0x96, 0x34], .stxZeroPageY 0x34),
      ([0x84, 0x34], .styZeroPage 0x34), ([0x8C, 0x34, 0x12], .styAbsolute 0x1234),
      ([0x94, 0x34], .styZeroPageX 0x34), ([0xAA], .tax), ([0xA8], .tay), ([0x8A], .txa), ([0x98], .tya),
      ([0xBA], .tsx), ([0x9A], .txs)]) := by
  rfl

/-- R67, R61: the opcode, then the operand bytes 0x34 or 0x34 0x12, low byte first. -/
theorem test_decode_logic : AllDecode (
    [([0x21, 0x34], .andIndexedIndirect 0x34), ([0x25, 0x34], .andZeroPage 0x34), ([0x29, 0x34], .andImmediate 0x34),
      ([0x2D, 0x34, 0x12], .andAbsolute 0x1234), ([0x31, 0x34], .andIndirectIndexed 0x34),
      ([0x35, 0x34], .andZeroPageX 0x34), ([0x39, 0x34, 0x12], .andAbsoluteY 0x1234),
      ([0x3D, 0x34, 0x12], .andAbsoluteX 0x1234), ([0x01, 0x34], .oraIndexedIndirect 0x34),
      ([0x05, 0x34], .oraZeroPage 0x34), ([0x09, 0x34], .oraImmediate 0x34),
      ([0x0D, 0x34, 0x12], .oraAbsolute 0x1234), ([0x11, 0x34], .oraIndirectIndexed 0x34),
      ([0x15, 0x34], .oraZeroPageX 0x34), ([0x19, 0x34, 0x12], .oraAbsoluteY 0x1234),
      ([0x1D, 0x34, 0x12], .oraAbsoluteX 0x1234), ([0x41, 0x34], .eorIndexedIndirect 0x34),
      ([0x45, 0x34], .eorZeroPage 0x34), ([0x49, 0x34], .eorImmediate 0x34),
      ([0x4D, 0x34, 0x12], .eorAbsolute 0x1234), ([0x51, 0x34], .eorIndirectIndexed 0x34),
      ([0x55, 0x34], .eorZeroPageX 0x34), ([0x59, 0x34, 0x12], .eorAbsoluteY 0x1234),
      ([0x5D, 0x34, 0x12], .eorAbsoluteX 0x1234)]) := by
  rfl

/-- R67, R61: the opcode, then the operand bytes 0x34 or 0x34 0x12, low byte first. -/
theorem test_decode_arithmetic : AllDecode (
    [([0x61, 0x34], .adcIndexedIndirect 0x34), ([0x65, 0x34], .adcZeroPage 0x34), ([0x69, 0x34], .adcImmediate 0x34),
      ([0x6D, 0x34, 0x12], .adcAbsolute 0x1234), ([0x71, 0x34], .adcIndirectIndexed 0x34),
      ([0x75, 0x34], .adcZeroPageX 0x34), ([0x79, 0x34, 0x12], .adcAbsoluteY 0x1234),
      ([0x7D, 0x34, 0x12], .adcAbsoluteX 0x1234), ([0xE1, 0x34], .sbcIndexedIndirect 0x34),
      ([0xE5, 0x34], .sbcZeroPage 0x34), ([0xE9, 0x34], .sbcImmediate 0x34),
      ([0xED, 0x34, 0x12], .sbcAbsolute 0x1234), ([0xF1, 0x34], .sbcIndirectIndexed 0x34),
      ([0xF5, 0x34], .sbcZeroPageX 0x34), ([0xF9, 0x34, 0x12], .sbcAbsoluteY 0x1234),
      ([0xFD, 0x34, 0x12], .sbcAbsoluteX 0x1234)]) := by
  rfl

/-- R67, R61: the opcode, then the operand bytes 0x34 or 0x34 0x12, low byte first. -/
theorem test_decode_compares_and_bit : AllDecode (
    [([0xC1, 0x34], .cmpIndexedIndirect 0x34), ([0xC5, 0x34], .cmpZeroPage 0x34), ([0xC9, 0x34], .cmpImmediate 0x34),
      ([0xCD, 0x34, 0x12], .cmpAbsolute 0x1234), ([0xD1, 0x34], .cmpIndirectIndexed 0x34),
      ([0xD5, 0x34], .cmpZeroPageX 0x34), ([0xD9, 0x34, 0x12], .cmpAbsoluteY 0x1234),
      ([0xDD, 0x34, 0x12], .cmpAbsoluteX 0x1234), ([0xE0, 0x34], .cpxImmediate 0x34),
      ([0xE4, 0x34], .cpxZeroPage 0x34), ([0xEC, 0x34, 0x12], .cpxAbsolute 0x1234),
      ([0xC0, 0x34], .cpyImmediate 0x34), ([0xC4, 0x34], .cpyZeroPage 0x34),
      ([0xCC, 0x34, 0x12], .cpyAbsolute 0x1234), ([0x24, 0x34], .bitZeroPage 0x34),
      ([0x2C, 0x34, 0x12], .bitAbsolute 0x1234)]) := by
  rfl

/-- R67, R61: the opcode, then the operand bytes 0x34 or 0x34 0x12, low byte first. -/
theorem test_decode_increments : AllDecode (
    [([0xE8], .inx), ([0xCA], .dex), ([0xC8], .iny), ([0x88], .dey), ([0xE6, 0x34], .incZeroPage 0x34),
      ([0xEE, 0x34, 0x12], .incAbsolute 0x1234), ([0xF6, 0x34], .incZeroPageX 0x34),
      ([0xFE, 0x34, 0x12], .incAbsoluteX 0x1234), ([0xC6, 0x34], .decZeroPage 0x34),
      ([0xCE, 0x34, 0x12], .decAbsolute 0x1234), ([0xD6, 0x34], .decZeroPageX 0x34),
      ([0xDE, 0x34, 0x12], .decAbsoluteX 0x1234)]) := by
  rfl

/-- R67, R61: the opcode, then the operand bytes 0x34 or 0x34 0x12, low byte first. -/
theorem test_decode_shifts : AllDecode (
    [([0x06, 0x34], .aslZeroPage 0x34), ([0x0A], .aslAccumulator), ([0x0E, 0x34, 0x12], .aslAbsolute 0x1234),
      ([0x16, 0x34], .aslZeroPageX 0x34), ([0x1E, 0x34, 0x12], .aslAbsoluteX 0x1234),
      ([0x46, 0x34], .lsrZeroPage 0x34), ([0x4A], .lsrAccumulator), ([0x4E, 0x34, 0x12], .lsrAbsolute 0x1234),
      ([0x56, 0x34], .lsrZeroPageX 0x34), ([0x5E, 0x34, 0x12], .lsrAbsoluteX 0x1234),
      ([0x26, 0x34], .rolZeroPage 0x34), ([0x2A], .rolAccumulator), ([0x2E, 0x34, 0x12], .rolAbsolute 0x1234),
      ([0x36, 0x34], .rolZeroPageX 0x34), ([0x3E, 0x34, 0x12], .rolAbsoluteX 0x1234),
      ([0x66, 0x34], .rorZeroPage 0x34), ([0x6A], .rorAccumulator), ([0x6E, 0x34, 0x12], .rorAbsolute 0x1234),
      ([0x76, 0x34], .rorZeroPageX 0x34), ([0x7E, 0x34, 0x12], .rorAbsoluteX 0x1234)]) := by
  rfl

/-- R67, R61: the opcode, then the operand bytes 0x34 or 0x34 0x12, low byte first. -/
theorem test_decode_stack_and_flags : AllDecode (
    [([0x48], .pha), ([0x08], .php), ([0x68], .pla), ([0x28], .plp), ([0x18], .clc), ([0x38], .sec), ([0x58], .cli),
      ([0x78], .sei), ([0xD8], .cld), ([0xF8], .sed), ([0xB8], .clv), ([0xEA], .nop)]) := by
  rfl

/-- R67, R61: the opcode, then the operand bytes 0x34 or 0x34 0x12, low byte first. -/
theorem test_decode_control : AllDecode (
    [([0x4C, 0x34, 0x12], .jmpAbsolute 0x1234), ([0x6C, 0x34, 0x12], .jmpIndirect 0x1234),
      ([0x20, 0x34, 0x12], .jsr 0x1234), ([0x60], .rts), ([0x40], .rti), ([0x00], .brk), ([0x90, 0x34], .bcc 0x34),
      ([0xB0, 0x34], .bcs 0x34), ([0xF0, 0x34], .beq 0x34), ([0xD0, 0x34], .bne 0x34), ([0x30, 0x34], .bmi 0x34),
      ([0x10, 0x34], .bpl 0x34), ([0x50, 0x34], .bvc 0x34), ([0x70, 0x34], .bvs 0x34)]) := by
  rfl

/-- R68, L2.0.9. -/
theorem test_decode_unknown :
    ([0x02, 0x80, 0x89, 0x9E, 0xEB, 0xFF].map fun op => (decode [op, 0x34, 0x12]).toOption) = List.replicate 6 none := by rfl

/-- R60: the operand bytes are part of the instruction. -/
theorem test_decode_short : (decode [0x8D, 0x00]).toOption = none := by rfl

/-! ### One step each, on vectors of spec/95

Each test's source is the vector it names. The owners are those of spec/95: RAM 0x0000 to 0x07FF and ROM 0x8000 to
0xFFFF; the instruction is at 0x0600. -/

def testConfig : Config where
  owners := [⟨0x0000, 0x07FF, .ram⟩, ⟨0x8000, 0xFFFF, .rom⟩]
  initialMemory := []
  initialPc := 0x0600
  returnBias := 0
  zpPointerWrap := true
  brkMode := .vector

/-- The bytes at 0x0600, over memory that holds the cells. -/
def program (bytes : List Byte) (cells : Memory) : State :=
  (State.start testConfig).setMem (placeBytes bytes 0x0600 cells)

/-- P from its byte. -/
def flags (b : Byte) : Flags := Flags.startup.fromInt b []

/-- What is seen of a completed step. -/
def seen {α : Type} (f : State → α) : Host.Outcome State Fault Refusal → Option α
  | .next t => some (f t)
  | .fault _ | .refused _ => none

/-- The fault of a step. -/
def faultOf : Host.Outcome State Fault Refusal → Option Fault
  | .fault f => some f
  | .next _ | .refused _ => none

/-- The refusal of a step. -/
def refusalOf : Host.Outcome State Fault Refusal → Option Refusal
  | .refused r => some r
  | .next _ | .fault _ => none

/-- A, P and PC. -/
def apc (t : State) : Byte × Byte × Addr := (t.a, t.p.toInt, t.pc)
/-- X, P and PC. -/
def xpc (t : State) : Byte × Byte × Addr := (t.x, t.p.toInt, t.pc)
/-- Y, P and PC. -/
def ypc (t : State) : Byte × Byte × Addr := (t.y, t.p.toInt, t.pc)
/-- P and PC. -/
def ppc (t : State) : Byte × Addr := (t.p.toInt, t.pc)

-- Loads, stores, transfers (L1.11, L2.A, L2.B)
theorem test_lda_immediate_zero :
    seen apc (step { program [0xA9, 0x00] [] with a := 0x55 }) = some (0x00, 0x06, 0x0602) := by rfl
theorem test_lda_zeroPageX_wraps :
    seen apc (step { program [0xB5, 0xFF] [(0, 0x77)] with x := 0x01 }) = some (0x77, 0x04, 0x0602) := by
  rfl
theorem test_lda_absoluteX_wraps :
    seen apc (step { program [0xBD, 0xFF, 0xFF] [(0, 0x66)] with x := 0x01 }) = some (0x66, 0x04, 0x0603) := by
  rfl
theorem test_lda_absoluteY_wraps :
    seen apc (step { program [0xB9, 0xFE, 0xFF] [(1, 0x44)] with y := 0x03 }) = some (0x44, 0x04, 0x0603) := by
  rfl
theorem test_lda_absolute : seen apc (step (program [0xAD, 0x00, 0x02] [(0x200, 0x80)])) = some (0x80, 0x84, 0x0603) := by
  rfl
theorem test_lda_indexedIndirect :
    seen apc (step { program [0xA1, 0x80] [(5, 0x10), (6, 0x02), (0x210, 0x99)] with x := 0x85 }) =
      some (0x99, 0x84, 0x0602) := by rfl
theorem test_lda_indexedIndirect_pointer_noWrap :
    seen apc (step { program [0xA1, 0xFF] [(0, 0x03), (0x100, 0x04), (0x300, 0xAB), (0x400, 0xCD)] with
      cfg := { testConfig with zpPointerWrap := false } }) = some (0xCD, 0x84, 0x0602) := by rfl
theorem test_lda_indirectIndexed :
    seen apc (step { program [0xB1, 0x20] [(0x20, 0xF0), (0x21, 0x02), (0x310, 0x5A)] with y := 0x20 }) =
      some (0x5A, 0x04, 0x0602) := by rfl
theorem test_lda_indirectIndexed_pointer_wraps :
    seen apc (step { program [0xB1, 0xFF] [(0, 0x02), (0xFF, 0xFF), (0x100, 0x03), (0x300, 0xAB), (0x400, 0xCD)] with
      y := 0x01 }) = some (0xAB, 0x84, 0x0602) := by rfl
theorem test_ldx_zeroPageY_wraps :
    seen xpc (step { program [0xB6, 0xFF] [(1, 0x55)] with y := 0x02 }) = some (0x55, 0x04, 0x0602) := by
  rfl
theorem test_ldx_immediate : seen xpc (step (program [0xA2, 0x7F] [])) = some (0x7F, 0x04, 0x0602) := by
  rfl
theorem test_ldy_immediate : seen ypc (step (program [0xA0, 0xFF] [])) = some (0xFF, 0x84, 0x0602) := by
  rfl
theorem test_sta_zeroPage :
    seen (fun t => (Memory.read t.mem 0x10, t.p.toInt)) (step { program [0x85, 0x10] [] with
      a := 0x42, p := flags 0x86 }) = some (0x42, 0x86) := by rfl
theorem test_sta_absolute_rom :
    faultOf (step { program [0x8D, 0x00, 0x80] [] with a := 0x42 }) = some (.readOnlyWriteViolation 0x8000) := by
  rfl
theorem test_sta_absolute_own_operand :
    seen (fun t => Memory.read t.mem 0x601) (step { program [0x8D, 0x01, 0x06] [] with a := 0xEA }) = some 0xEA := by
  rfl
theorem test_stx_zeroPageY_wraps :
    seen (fun t => Memory.read t.mem 1) (step { program [0x96, 0xFF] [] with x := 0x3C, y := 0x02 }) = some 0x3C := by
  rfl
theorem test_sty_zeroPageX :
    seen (fun t => Memory.read t.mem 0x11) (step { program [0x94, 0x10] [] with x := 0x01, y := 0x09 }) = some 0x09 := by
  rfl
theorem test_tax : seen xpc (step { program [0xAA] [] with x := 0x12 }) = some (0x00, 0x06, 0x0601) := by
  rfl
theorem test_tay : seen ypc (step { program [0xA8] [] with a := 0x80 }) = some (0x80, 0x84, 0x0601) := by
  rfl
theorem test_txa : seen apc (step { program [0x8A] [] with x := 0xFF }) = some (0xFF, 0x84, 0x0601) := by
  rfl
theorem test_tya :
    seen apc (step { program [0x98] [] with y := 0x01, p := flags 0x82 }) = some (0x01, 0x00, 0x0601) := by
  rfl
theorem test_tsx : seen xpc (step (program [0xBA] [])) = some (0xFD, 0x84, 0x0601) := by rfl
theorem test_txs : seen (fun t => (t.sp, t.p.toInt)) (step (program [0x9A] [])) = some (0x00, 0x04) := by
  rfl

-- Logic, arithmetic, compares, bit test (L2.C, L2.D)
theorem test_and : seen apc (step { program [0x29, 0x3C] [] with a := 0xF0 }) = some (0x30, 0x04, 0x0602) := by
  rfl
theorem test_ora : seen apc (step { program [0x09, 0x80] [] with a := 0x01 }) = some (0x81, 0x84, 0x0602) := by
  rfl
theorem test_eor : seen apc (step { program [0x49, 0x0F] [] with a := 0xFF }) = some (0xF0, 0x84, 0x0602) := by
  rfl
theorem test_adc_overflow : seen apc (step { program [0x69, 0x50] [] with a := 0x50 }) = some (0xA0, 0xC4, 0x0602) := by
  rfl
theorem test_adc_decimal_ignored :
    seen apc (step { program [0x69, 0x0C] [] with a := 0xF0, p := flags 0x0C }) = some (0xFC, 0x8C, 0x0602) := by
  rfl
theorem test_sbc_overflow :
    seen apc (step { program [0xE9, 0x01] [] with a := 0x80, p := flags 0x05 }) = some (0x7F, 0x45, 0x0602) := by
  rfl
theorem test_sbc_borrow_in :
    seen apc (step { program [0xE9, 0x42] [] with a := 0x42 }) = some (0xFF, 0x84, 0x0602) := by rfl
theorem test_cmp_equal : seen apc (step { program [0xC9, 0x10] [] with a := 0x10 }) = some (0x10, 0x07, 0x0602) := by
  rfl
theorem test_cmp_less :
    seen apc (step { program [0xC9, 0x80] [] with a := 0x01 }) = some (0x01, 0x84, 0x0602) := by rfl
theorem test_cpx : seen xpc (step { program [0xE0, 0x06] [] with x := 0x05 }) = some (0x05, 0x84, 0x0602) := by
  rfl
theorem test_cpy : seen ypc (step { program [0xC0, 0xFF] [] with y := 0xFF }) = some (0xFF, 0x07, 0x0602) := by
  rfl
theorem test_bit_zeroPage :
    seen apc (step { program [0x24, 0x10] [(0x10, 0xC0)] with a := 0x01 }) = some (0x01, 0xC6, 0x0602) := by
  rfl
theorem test_bit_absolute :
    seen apc (step { program [0x2C, 0x00, 0x02] [(0x200, 0x01)] with a := 0xFF, p := flags 0xC4 }) =
      some (0xFF, 0x04, 0x0603) := by rfl

-- Increment, decrement, shift, rotate (L2.E)
theorem test_inx : seen xpc (step { program [0xE8] [] with x := 0xFF, p := flags 0x05 }) = some (0x00, 0x07, 0x0601) := by
  rfl
theorem test_dex : seen xpc (step (program [0xCA] [])) = some (0xFF, 0x84, 0x0601) := by rfl
theorem test_iny : seen ypc (step { program [0xC8] [] with y := 0xFF }) = some (0x00, 0x06, 0x0601) := by
  rfl
theorem test_dey : seen ypc (step { program [0x88] [] with y := 0x80 }) = some (0x7F, 0x04, 0x0601) := by
  rfl
theorem test_inc :
    seen (fun t => (Memory.read t.mem 0x10, t.p.toInt)) (step (program [0xE6, 0x10] [(0x10, 0x7F)])) =
      some (0x80, 0x84) := by rfl
theorem test_inc_rom : faultOf (step (program [0xEE, 0x00, 0x80] [])) = some (.readOnlyWriteViolation 0x8000) := by
  rfl
theorem test_inc_unmapped : faultOf (step (program [0xEE, 0x00, 0x10] [])) = some (.unmappedMemoryAddress 0x1000) := by
  rfl
theorem test_dec :
    seen (fun t => (Memory.read t.mem 0x10, t.p.toInt)) (step (program [0xC6, 0x10] [])) = some (0xFF, 0x84) := by
  rfl
theorem test_asl_accumulator : seen apc (step { program [0x0A] [] with a := 0x81 }) = some (0x02, 0x05, 0x0601) := by
  rfl
theorem test_asl_zeroPage :
    seen (fun t => (Memory.read t.mem 0x10, t.p.toInt)) (step { program [0x06, 0x10] [(0x10, 0x40)] with
      p := flags 0x05 }) = some (0x80, 0x84) := by rfl
theorem test_lsr_accumulator : seen apc (step { program [0x4A] [] with a := 0xFF }) = some (0x7F, 0x05, 0x0601) := by
  rfl
theorem test_rol_accumulator :
    seen apc (step { program [0x2A] [] with a := 0x40, p := flags 0x05 }) = some (0x81, 0x84, 0x0601) := by
  rfl
theorem test_ror_accumulator :
    seen apc (step { program [0x6A] [] with p := flags 0x05 }) = some (0x80, 0x84, 0x0601) := by rfl
theorem test_ror_zeroPage :
    seen (fun t => (Memory.read t.mem 0x20, t.p.toInt)) (step (program [0x66, 0x20] [(0x20, 0x03)])) =
      some (0x01, 0x05) := by rfl

-- Stack (L2.F)
theorem test_pha_wraps :
    seen (fun t => (Memory.read t.mem 0x100, t.sp)) (step { program [0x48] [] with a := 0x42, sp := 0x00 }) =
      some (0x42, 0xFF) := by rfl
theorem test_pha_unmapped :
    faultOf (step { program [0x48] [] with cfg := { testConfig with owners := [⟨0x0600, 0x07FF, .ram⟩] } }) =
      some (.unmappedMemoryAddress 0x01FD) := by rfl
theorem test_php :
    seen (fun t => (Memory.read t.mem 0x1FD, t.sp, t.p.toInt)) (step { program [0x08] [] with p := flags 0xC3 }) =
      some (0xF3, 0xFC, 0xC3) := by rfl
theorem test_pla_wraps :
    seen (fun t => (t.a, t.p.toInt, t.sp)) (step { program [0x68] [(0x100, 0x80)] with sp := 0xFF }) =
      some (0x80, 0x84, 0x00) := by rfl
theorem test_plp :
    seen (fun t => (t.p.toInt, t.sp)) (step { program [0x28] [(0x1FD, 0xFF)] with sp := 0xFC }) =
      some (0xCF, 0xFD) := by rfl

-- Control transfer (L2.G, L2.H)
theorem test_jmp_absolute : seen ppc (step (program [0x4C, 0x00, 0xC0] [])) = some (0x04, 0xC000) := by rfl
theorem test_jmp_indirect_pageWrap :
    seen ppc (step (program [0x6C, 0xFF, 0x02] [(0x200, 0x12), (0x2FF, 0x34), (0x300, 0x56)])) =
      some (0x04, 0x1234) := by rfl
theorem test_jmp_indirect_pointerFFFF :
    seen ppc (step { program [0x6C, 0xFF, 0xFF] [(0xFF00, 0x12), (0xFFFF, 0x34)] with
      cfg := { testConfig with owners := [⟨0x0000, 0x07FF, .ram⟩, ⟨0x8000, 0xFFFF, .ram⟩] } }) =
      some (0x04, 0x1234) := by rfl
/-- What JSR leaves: the two bytes at 0x01FD and 0x01FC, SP and PC. -/
def callSeen (t : State) : Byte × Byte × Byte × Addr := (Memory.read t.mem 0x1FD, Memory.read t.mem 0x1FC, t.sp, t.pc)
theorem test_jsr : seen callSeen (step (program [0x20, 0x00, 0x07] [])) = some (0x06, 0x03, 0xFB, 0x0700) := by
  rfl
theorem test_jsr_bias :
    seen callSeen (step { program [0x20, 0x00, 0x07] [] with cfg := { testConfig with returnBias := 1 } }) =
      some (0x06, 0x02, 0xFB, 0x0700) := by rfl
theorem test_rts_wraps :
    seen (fun t => (t.pc, t.sp)) (step { program [0x60] [(0x100, 0x34), (0x101, 0x12)] with sp := 0xFF }) =
      some (0x1234, 0x01) := by rfl
theorem test_rts_bias :
    seen (fun t => (t.pc, t.sp)) (step { program [0x60] [(0x1FC, 0x02), (0x1FD, 0x06)] with
      sp := 0xFB, cfg := { testConfig with returnBias := 1 } }) = some (0x0603, 0xFD) := by rfl
theorem test_rti :
    seen (fun t => (t.p.toInt, t.pc, t.sp)) (step { program [0x40] [(0x1FB, 0xFF), (0x1FC, 0x34), (0x1FD, 0x12)] with
      sp := 0xFA }) = some (0xCF, 0x1234, 0xFD) := by rfl
theorem test_brk :
    seen (fun t => (Memory.read t.mem 0x1FD, Memory.read t.mem 0x1FC, Memory.read t.mem 0x1FB, t.sp, t.p.toInt, t.pc))
      (step { program [0x00] [(0xFFFF, 0x80)] with p := flags 0xCB }) =
      some (0x06, 0x02, 0xFB, 0xFA, 0xCF, 0x8000) := by rfl
theorem test_brk_refuse :
    refusalOf (step { program [0x00] [] with cfg := { testConfig with brkMode := .refuse } }) =
      some (.brkRefused 0x00 0x0600) := by rfl
theorem test_bcc : seen ppc (step (program [0x90, 0x10] [])) = some (0x04, 0x0612) := by rfl
theorem test_bcs :
    seen ppc (step { program [0xB0, 0x80] [] with p := flags 0x05 }) = some (0x05, 0x0582) := by rfl
theorem test_beq_notTaken : seen ppc (step (program [0xF0, 0x05] [])) = some (0x04, 0x0602) := by rfl
theorem test_beq_wraps :
    seen ppc (step { State.reset with pc := 0xFFF0, mem := [(0xFFF0, 0xF0), (0xFFF1, 0x7F)], p := flags 0x06 }) =
      some (0x06, 0x0071) := by rfl
theorem test_bne : seen ppc (step (program [0xD0, 0xFE] [])) = some (0x04, 0x0600) := by rfl
theorem test_bne_wraps :
    seen ppc (step { State.reset with mem := [(0, 0xD0), (1, 0x80)] }) = some (0x04, 0xFF82) := by rfl
theorem test_bmi : seen ppc (step { program [0x30, 0x02] [] with p := flags 0x84 }) = some (0x84, 0x0604) := by
  rfl
theorem test_bpl : seen ppc (step (program [0x10, 0x00] [])) = some (0x04, 0x0602) := by rfl
theorem test_bvc : seen ppc (step (program [0x50, 0xFE] [])) = some (0x04, 0x0600) := by rfl
theorem test_bvs : seen ppc (step { program [0x70, 0x10] [] with p := flags 0x44 }) = some (0x44, 0x0612) := by
  rfl

-- Flags and NOP (L2.I)
theorem test_clc : seen ppc (step { program [0x18] [] with p := flags 0xCF }) = some (0xCE, 0x0601) := by rfl
theorem test_sec : seen ppc (step { program [0x38] [] with p := flags 0x00 }) = some (0x01, 0x0601) := by rfl
theorem test_cli : seen ppc (step { program [0x58] [] with p := flags 0x04 }) = some (0x00, 0x0601) := by rfl
theorem test_sei : seen ppc (step { program [0x78] [] with p := flags 0x00 }) = some (0x04, 0x0601) := by rfl
theorem test_cld : seen ppc (step { program [0xD8] [] with p := flags 0x08 }) = some (0x00, 0x0601) := by rfl
theorem test_sed : seen ppc (step { program [0xF8] [] with p := flags 0x00 }) = some (0x08, 0x0601) := by rfl
theorem test_clv : seen ppc (step { program [0xB8] [] with p := flags 0x40 }) = some (0x00, 0x0601) := by rfl
theorem test_nop : seen ppc (step { program [0xEA] [] with p := flags 0xC3 }) = some (0xC3, 0x0601) := by rfl

-- The cycle and the faults of Identify (L2.J, L2.K)
theorem test_trace :
    seen State.trace (step (program [0xA9, 0x05] [])) =
      some [⟨0x0600, .LDA, [0x05], 0x00, 0x00, 0x00, 0x04, 0xFD⟩] := by rfl
theorem test_fetch_wraps :
    seen apc (step { State.reset with pc := 0xFFFF, mem := [(0, 0x34), (1, 0x12), (0x1234, 0x9A), (0xFFFF, 0xAD)] }) =
      some (0x9A, 0x84, 0x0002) := by rfl
theorem test_unknown_opcode : faultOf (step (program [0xFF] [])) = some (.unknownOpcode 0xFF 0x0600) := by rfl
theorem test_operand_unmapped :
    faultOf (step { program [] [(0x7FF, 0xA9)] with pc := 0x07FF }) = some (.unmappedMemoryAddress 0x0800) := by
  rfl
theorem test_opcode_unmapped :
    faultOf (step { program [] [] with pc := 0x1000 }) = some (.unmappedMemoryAddress 0x1000) := by rfl
theorem test_halt : refusalOf (step (hostHalt (program [0xEA] []))) = some .halted := by rfl

-- Placing a table word after reset (notes/assumptions/4.md); the words are R63's and R67's
theorem test_withFetchWord_lda :
    seen apc (step (State.reset.withFetchWord 16 0x05A9)) = some (0x05, 0x04, 0x0002) := by rfl
theorem test_withFetchWord_jmp :
    seen ppc (step (State.reset.withFetchWord 24 0xC0004C)) = some (0x04, 0xC000) := by rfl
theorem test_decodeTableWord : decodeTableWord 24 0x02008D = some (.staAbsolute 0x0200) := by rfl
theorem test_decodeTableWord_unknown : decodeTableWord 8 0x02 = none := by rfl

end Sys2Proof.Tests
end

