-- ==== Sys2Proof/Tests/Witnesses.lean ====
section
/-! SUPPORT. Witnesses: for each statement with hypotheses, a concrete state and operands that meet all of them
together, one per clause. The owners are those of spec/95 unless a state names others. -/

namespace Sys2Proof.Tests

open Sys2Proof.Machine Sys2Proof.Claims

/-- A running state under the owners of spec/95, memory all 0x00. -/
def base : State := program [] []

/-- Owners that begin at 0x01FD: the lower stack bytes are unmapped. -/
def highStack : Config := { testConfig with owners := [⟨0x01FD, 0xFFFF, .ram⟩] }

/-- Owners that begin at 0x01FC. -/
def higherStack : Config := { testConfig with owners := [⟨0x01FC, 0xFFFF, .ram⟩] }

/-- Page 1 in ROM. -/
def romStack : Config := { testConfig with owners := [⟨0x0100, 0x01FF, .rom⟩] }

/-- One RAM owner without the two vector bytes. -/
def noVector : Config := { testConfig with owners := [⟨0x0000, 0xFFFD, .ram⟩] }

theorem base_reads (a : Addr) (h : a.toNat < 0x0800) : Reads base a 0x00 := by
  refine ⟨⟨⟨0x0000, 0x07FF, .ram⟩, ?_⟩, rfl⟩
  have h2 : a ≤ 0x07FF#16 := by
    rw [BitVec.le_def]
    show a.toNat ≤ 2047
    omega
  have h1 : (0x0000#16) ≤ a := by
    rw [BitVec.le_def]
    exact Nat.zero_le _
  simp [ownerOf, base, program, State.start, State.setMem, testConfig, Owner.covers, h1, h2]

/-! ### Encoding and the step -/

theorem witness_EncodeOfDecodeIsTheBytes :
    ∃ bytes rest i, rest ≠ [] ∧ decode bytes = .ok (i, rest) :=
  ⟨[0xB1, 0x20, 0xEA], [0xEA], .ldaIndirectIndexed 0x20, by decide, rfl⟩

theorem witness_UnknownOpcodes_first :
    ∃ (s : State) (op : Byte), s.run = .running ∧ Reads s s.pc op ∧ op ∈ unknownOpcodes :=
  ⟨program [0x02] [], 0x02, rfl, ⟨⟨_, rfl⟩, rfl⟩, by decide⟩

theorem witness_UnknownOpcodes_last :
    ∃ (s : State) (op : Byte), s.run = .running ∧ Reads s s.pc op ∧ op ∈ unknownOpcodes ∧
      Moves s { s with run := .faulted (.unknownOpcode op s.pc) } :=
  ⟨program [0xFF] [], 0xFF, rfl, ⟨⟨_, rfl⟩, rfl⟩, by decide, rfl, .inr (.inl ⟨_, rfl, rfl⟩)⟩

/-- The instruction straddles 0xFFFF. -/
theorem witness_StepExecutesTheInstructionAtPc :
    ∃ i s, s.run = .running ∧ BytesAtPc i s ∧ s.pc = 0xFFFE := by
  refine ⟨.staAbsolute 0x0200, { State.reset with pc := 0xFFFE, mem := [(0, 0x02), (0xFFFE, 0x8D)] }, rfl, ?_, rfl⟩
  intro k b hk
  match k with
  | 0 => cases hk; exact ⟨⟨_, rfl⟩, rfl⟩
  | 1 => cases hk; exact ⟨⟨_, rfl⟩, rfl⟩
  | 2 => cases hk; exact ⟨⟨_, rfl⟩, rfl⟩
  | k + 3 => simp [encode, Instr.operand, Operand.bytes, EaOperand.bytes] at hk

/-- The hypotheses of the statement about Identify, at one instruction, state and byte. -/
abbrev FirstUnmapped (i : Instr) (s : State) (k : Nat) : Prop :=
  s.run = .running ∧ k < i.length ∧
    (∀ (j : Nat) (b : Byte), j < k → (encode i)[j]? = some b → Reads s (BitVec.ofNat 16 (s.pc.toNat + j)) b) ∧
    Unmapped s (BitVec.ofNat 16 (s.pc.toNat + k))

theorem witness_Identify_opcode : ∃ i s, FirstUnmapped i s 0 :=
  ⟨.nop, { base with pc := 0x1000 }, rfl, by decide, fun _ _ h => absurd h (Nat.not_lt_zero _), rfl⟩

theorem witness_Identify_firstOperand : ∃ i s, FirstUnmapped i s 1 :=
  ⟨.ldaImmediate 0x05, { program [] [(0x7FF, 0xA9)] with pc := 0x07FF }, rfl, by decide, fun j b h hk => by
    obtain rfl : j = 0 := by omega
    cases hk
    exact ⟨⟨_, rfl⟩, rfl⟩, rfl⟩

theorem witness_Identify_secondOperand : ∃ i s, FirstUnmapped i s 2 :=
  ⟨.staAbsolute 0x0200, { program [] [(0x7FE, 0x8D)] with pc := 0x07FE }, rfl, by decide, fun j b h hk => by
    match j with
    | 0 => cases hk; exact ⟨⟨_, rfl⟩, rfl⟩
    | 1 => cases hk; exact ⟨⟨_, rfl⟩, rfl⟩
    | j + 2 => omega, rfl⟩

/-- A store completes: it serves every statement whose hypothesis is a completed step. -/
theorem witness_step_completes : ∃ s t, step s = .next t ∧ t.mem ≠ s.mem :=
  ⟨{ program [0x85, 0x10] [] with a := 0x42 }, _, rfl, by decide⟩

theorem witness_TerminalStatuses : ∃ (s : State) (f : Fault), s.run ≠ .running ∧ s.run = .faulted f :=
  ⟨{ base with run := .faulted (.unmappedMemoryAddress 0x1000) }, _, by decide, rfl⟩

theorem witness_HostHalt : ∃ s : State, s.run = .running ∧ Moves s { s with run := .halted } :=
  ⟨base, rfl, rfl, .inr (.inr (.inr (.inr rfl)))⟩

theorem witness_PlacedTableWord :
    ∃ s nbits w i, s.run = .running ∧ decodeTableWord nbits w = some i ∧ Mapped s s.pc ∧ Mapped s (s.pc + 1#16) ∧
      Mapped s (s.pc + 2#16) ∧ ∃ t, exec i (s.withFetchWord nbits w) = .next t :=
  ⟨State.reset, 24, 0xC0004C, .jmpAbsolute 0xC000, rfl, rfl, ⟨_, rfl⟩, ⟨_, rfl⟩, ⟨_, rfl⟩, _, rfl⟩

/-! ### Bus, owners, invariant -/

theorem witness_Bus_reads : ∃ s a b, Reads s a b := ⟨base, 0x07FF, 0x00, base_reads _ (by decide)⟩
theorem witness_Bus_unmapped : ∃ s a, Unmapped s a := ⟨base, 0x0800, rfl⟩
theorem witness_Bus_rom : ∃ s a, InRom s a := ⟨base, 0x8000, _, rfl, rfl⟩
theorem witness_Bus_writable : ∃ s a, Writable s a ∧ Memory.wf s.mem := ⟨base, 0x0000, ⟨_, rfl, by decide⟩, by decide⟩

theorem witness_OwnerOf : ∃ cfg a o, OwnerMapWellFormed cfg.owners ∧ ownerOf cfg a = some o :=
  ⟨testConfig, 0x07FF, _, by decide, rfl⟩

theorem witness_StartUpMeetsTheInvariant : ∃ cfg : Config, cfg.WellFormed ∧ cfg.initialMemory ≠ [] :=
  ⟨{ testConfig with initialMemory := [(0x8000, 0xEA), (0xFFFF, 0x80)] }, by decide, by decide⟩

theorem witness_EveryStepKeepsTheInvariant : ∃ s t, Inv s ∧ step s = .next t ∧ t.mem ≠ s.mem :=
  ⟨{ program [0x85, 0x10] [] with a := 0x42 }, _,
    ⟨by decide, by decide, by decide, rfl, rfl, fun _ h => absurd h (by simp [program, State.setMem, State.start])⟩,
    rfl, by decide⟩

theorem witness_NoStepChangesRom_rom : ∃ s t a, step s = .next t ∧ InRom s a ∧ ¬ Writable s a :=
  ⟨program [0xEA] [], _, 0x8000, rfl, ⟨_, rfl, rfl⟩, fun ⟨_, h, hk⟩ => by cases h; exact hk rfl⟩

theorem witness_NoStepChangesRom_unmapped : ∃ s t a, step s = .next t ∧ ¬ Writable s a :=
  ⟨program [0xEA] [], _, 0x7FFF, rfl, fun ⟨_, h, _⟩ => by cases h⟩

/-! ### Reading instructions: one state serves all, with its operand at 0x07FF or unmapped -/

/-- An operand in memory that can be read, for an instruction with an absolute form. -/
theorem absolute_reads (w : Addr) (h : w.toNat < 0x0800) : SourceReads (.ea (.absolute w)) base 0x00 :=
  ⟨w, rfl, base_reads w h⟩

theorem absolute_faults : SourceFaults (.ea (.absolute 0x0800)) base (.unmappedMemoryAddress 0x0800) :=
  .inr ⟨0x0800, rfl, rfl, rfl⟩

/-- The statements about reading instructions: the operand is a source, it reads, the mnemonic is the one named. -/
abbrev ReadsFor (m : Mnemonic) : Prop :=
  ∃ (i : Instr) (src : Source) (s : State) (v : Byte), i.operand = src.operand ∧ SourceReads src s v ∧ i.mnemonic = m

/-- The same for the clause about faults. -/
abbrev FaultsFor (m : Mnemonic) : Prop :=
  ∃ (i : Instr) (src : Source) (s : State) (f : Fault), i.operand = src.operand ∧ SourceFaults src s f ∧ i.mnemonic = m

theorem witness_Loads_LDA : ReadsFor .LDA := ⟨.ldaAbsolute 0x07FF, _, _, _, rfl, absolute_reads _ (by decide), rfl⟩
theorem witness_Loads_LDX : ReadsFor .LDX := ⟨.ldxAbsolute 0x07FF, _, _, _, rfl, absolute_reads _ (by decide), rfl⟩
theorem witness_Loads_LDY : ReadsFor .LDY := ⟨.ldyImmediate 0x80, .immediate 0x80, base, _, rfl, rfl, rfl⟩
theorem witness_Loads_fault : FaultsFor .LDX := ⟨.ldxAbsolute 0x0800, _, _, _, rfl, absolute_faults, rfl⟩
/-- The pointer's high byte is unmapped. -/
theorem witness_Loads_pointerFault : FaultsFor .LDA :=
  ⟨.ldaIndirectIndexed 0xFF, .ea (.indirectIndexed 0xFF),
    { base with cfg := { testConfig with owners := [⟨0x0001, 0x07FF, .ram⟩] } }, .unmappedMemoryAddress 0x0000, rfl,
    .inl (.inr ⟨⟨_, rfl⟩, rfl, rfl⟩), rfl⟩

theorem witness_Logic_AND :
    ∃ (i : Instr) (src : Source) (s : State) (v r : Byte), i.operand = src.operand ∧ SourceReads src s v ∧
      i.mnemonic = .AND ∧ ∀ k < 8, r.getLsbD k = (s.a.getLsbD k && v.getLsbD k) :=
  ⟨.andImmediate 0x3C, .immediate 0x3C, { base with a := 0xF0 }, 0x3C, 0x30, rfl, rfl, rfl, by decide⟩
theorem witness_Logic_ORA :
    ∃ (i : Instr) (src : Source) (s : State) (v r : Byte), i.operand = src.operand ∧ SourceReads src s v ∧
      i.mnemonic = .ORA ∧ ∀ k < 8, r.getLsbD k = (s.a.getLsbD k || v.getLsbD k) :=
  ⟨.oraImmediate 0x80, .immediate 0x80, { base with a := 0x01 }, 0x80, 0x81, rfl, rfl, rfl, by decide⟩
theorem witness_Logic_EOR :
    ∃ (i : Instr) (src : Source) (s : State) (v r : Byte), i.operand = src.operand ∧ SourceReads src s v ∧
      i.mnemonic = .EOR ∧ ∀ k < 8, r.getLsbD k = (s.a.getLsbD k ^^ v.getLsbD k) :=
  ⟨.eorImmediate 0x0F, .immediate 0x0F, { base with a := 0xFF }, 0x0F, 0xF0, rfl, rfl, rfl, by decide⟩
theorem witness_Logic_fault : FaultsFor .EOR := ⟨.eorAbsolute 0x0800, _, _, _, rfl, absolute_faults, rfl⟩

/-- The largest sum: 0xFF + 0xFF + 1. -/
theorem witness_Adc :
    ∃ (i : Instr) (src : Source) (s : State) (m r : Byte) (sum : Nat), i.mnemonic = .ADC ∧ i.operand = src.operand ∧
      SourceReads src s m ∧ sum = s.a.toNat + m.toNat + s.p.c.toNat ∧ r = BitVec.ofNat 8 (sum % 256) ∧ sum = 511 :=
  ⟨.adcImmediate 0xFF, .immediate 0xFF, { base with a := 0xFF, p := flags 0x05 }, 0xFF, 0xFF, 511, rfl, rfl, rfl, rfl,
    rfl, rfl⟩
theorem witness_Adc_fault : FaultsFor .ADC := ⟨.adcAbsolute 0x0800, _, _, _, rfl, absolute_faults, rfl⟩

/-- The smallest difference: 0x00 - 0xFF - 1. -/
theorem witness_Sbc :
    ∃ (i : Instr) (src : Source) (s : State) (m r : Byte) (diff : Int), i.mnemonic = .SBC ∧ i.operand = src.operand ∧
      SourceReads src s m ∧ diff = (s.a.toNat : Int) - m.toNat - (1 - s.p.c.toNat) ∧ r = BitVec.ofInt 8 diff ∧
      diff = -256 :=
  ⟨.sbcImmediate 0xFF, .immediate 0xFF, base, 0xFF, 0x00, -256, rfl, rfl, rfl, rfl, rfl, rfl⟩
theorem witness_Sbc_fault : FaultsFor .SBC := ⟨.sbcAbsolute 0x0800, _, _, _, rfl, absolute_faults, rfl⟩

theorem witness_Compares_CMP : ReadsFor .CMP := ⟨.cmpAbsolute 0x07FF, _, _, _, rfl, absolute_reads _ (by decide), rfl⟩
theorem witness_Compares_CPX : ReadsFor .CPX := ⟨.cpxAbsolute 0x0000, _, _, _, rfl, absolute_reads _ (by decide), rfl⟩
theorem witness_Compares_CPY : ReadsFor .CPY := ⟨.cpyImmediate 0xFF, .immediate 0xFF, base, _, rfl, rfl, rfl⟩
theorem witness_Compares_fault : FaultsFor .CPY := ⟨.cpyAbsolute 0x0800, _, _, _, rfl, absolute_faults, rfl⟩

theorem witness_Bit : ReadsFor .BIT := ⟨.bitAbsolute 0x07FF, _, _, _, rfl, absolute_reads _ (by decide), rfl⟩
theorem witness_Bit_fault : FaultsFor .BIT := ⟨.bitAbsolute 0x0800, _, _, _, rfl, absolute_faults, rfl⟩

/-! ### Stores, read-modify-write -/

/-- The statements about instructions that write at their effective address: it can be written. -/
abbrev WritesFor (m : Mnemonic) : Prop :=
  ∃ (i : Instr) (o : EaOperand) (s : State) (ea : Addr) (v : Byte), i.operand = .ea o ∧ EaIs o s ea ∧ Reads s ea v ∧
    Writable s ea ∧ i.mnemonic = m

/-- The same for the clause about faults: both ways a write can fault. -/
abbrev WriteFaultsFor (m : Mnemonic) : Prop :=
  (∃ (i : Instr) (o : EaOperand) (s : State) (ea : Addr), i.operand = .ea o ∧ EaIs o s ea ∧ i.mnemonic = m ∧
    WriteFaults s ea (.unmappedMemoryAddress ea)) ∧
  ∃ (i : Instr) (o : EaOperand) (s : State) (ea : Addr), i.operand = .ea o ∧ EaIs o s ea ∧ i.mnemonic = m ∧
    WriteFaults s ea (.readOnlyWriteViolation ea)

theorem zeroPage_writes : EaIs (.zeroPage 0xFF) base 0x00FF ∧ Reads base 0x00FF 0x00 ∧ Writable base 0x00FF :=
  ⟨rfl, base_reads _ (by decide), _, rfl, by decide⟩

theorem witness_Stores_STA : WritesFor .STA :=
  ⟨.staZeroPage 0xFF, _, _, _, _, rfl, zeroPage_writes.1, zeroPage_writes.2.1, zeroPage_writes.2.2, rfl⟩
theorem witness_Stores_STX : WritesFor .STX :=
  ⟨.stxZeroPage 0xFF, _, _, _, _, rfl, zeroPage_writes.1, zeroPage_writes.2.1, zeroPage_writes.2.2, rfl⟩
theorem witness_Stores_STY : WritesFor .STY :=
  ⟨.styZeroPage 0xFF, _, _, _, _, rfl, zeroPage_writes.1, zeroPage_writes.2.1, zeroPage_writes.2.2, rfl⟩
theorem witness_Stores_fault : WriteFaultsFor .STX :=
  ⟨⟨.stxAbsolute 0x7FFF, .absolute 0x7FFF, base, _, rfl, rfl, rfl, .inl ⟨rfl, rfl⟩⟩,
    ⟨.stxAbsolute 0x8000, .absolute 0x8000, base, _, rfl, rfl, rfl, .inr ⟨⟨_, rfl, rfl⟩, rfl⟩⟩⟩
theorem witness_Stores_pointerFault :
    ∃ (o : EaOperand) (s : State) (f : Fault), (Instr.staIndexedIndirect 0x00).operand = .ea o ∧ EaFaults o s f :=
  ⟨.indexedIndirect 0x00, { base with cfg := highStack }, .unmappedMemoryAddress 0x0000, rfl, .inl ⟨rfl, rfl⟩⟩

theorem witness_RegisterIncrements :
    ∃ (s : State) (r q : Byte), r.toNat = (s.x.toNat + 1) % 256 ∧ r.toNat = (s.y.toNat + 255) % 256 ∧
      q.toNat = (s.y.toNat + 1) % 256 ∧ s.x = 0xFF :=
  ⟨{ base with x := 0xFF, y := 0x01 }, 0x00, 0x02, rfl, rfl, rfl, rfl⟩

theorem witness_MemoryIncrements_INC :
    WritesFor .INC ∧ ∃ r : Byte, r.toNat = ((0xFF : Byte).toNat + 1) % 256 :=
  ⟨⟨.incZeroPage 0xFF, _, _, _, _, rfl, zeroPage_writes.1, zeroPage_writes.2.1, zeroPage_writes.2.2, rfl⟩, 0x00, rfl⟩
theorem witness_MemoryIncrements_DEC :
    WritesFor .DEC ∧ ∃ r : Byte, r.toNat = ((0x00 : Byte).toNat + 255) % 256 :=
  ⟨⟨.decZeroPage 0xFF, _, _, _, _, rfl, zeroPage_writes.1, zeroPage_writes.2.1, zeroPage_writes.2.2, rfl⟩, 0xFF, rfl⟩
theorem witness_MemoryIncrements_fault : WriteFaultsFor .DEC :=
  ⟨⟨.decAbsolute 0x7FFF, .absolute 0x7FFF, base, _, rfl, rfl, rfl, .inl ⟨rfl, rfl⟩⟩,
    ⟨.decAbsolute 0x8000, .absolute 0x8000, base, _, rfl, rfl, rfl, .inr ⟨⟨_, rfl, rfl⟩, rfl⟩⟩⟩

theorem witness_Shifts_ASL :
    ∃ (s : State) (v r : Byte) (c : Bool), ShiftGives .ASL v s.p.c r c ∧ Instr.aslAccumulator.operand = .accumulator ∧ s.a = v :=
  ⟨{ base with a := 0x80 }, _, 0x00, true, .inl ⟨rfl, rfl, rfl⟩, rfl, rfl⟩
theorem witness_Shifts_LSR :
    ∃ (s : State) (v r : Byte) (c : Bool), ShiftGives .LSR v s.p.c r c ∧ Instr.lsrAccumulator.operand = .accumulator ∧ s.a = v :=
  ⟨{ base with a := 0x01 }, _, 0x00, true, .inr (.inl ⟨rfl, rfl, rfl⟩), rfl, rfl⟩
theorem witness_Shifts_ROL :
    ∃ (s : State) (v r : Byte) (c : Bool), ShiftGives .ROL v s.p.c r c ∧ Instr.rolAccumulator.operand = .accumulator ∧ s.a = v :=
  ⟨{ base with a := 0x80, p := flags 0x05 }, _, 0x01, true, .inr (.inr (.inl ⟨rfl, rfl, rfl⟩)), rfl, rfl⟩
theorem witness_Shifts_ROR :
    ∃ (s : State) (v r : Byte) (c : Bool), ShiftGives .ROR v s.p.c r c ∧ Instr.rorAccumulator.operand = .accumulator ∧ s.a = v :=
  ⟨{ base with a := 0x01, p := flags 0x05 }, _, 0x80, true, .inr (.inr (.inr ⟨rfl, rfl, rfl⟩)), rfl, rfl⟩
theorem witness_Shifts_memory :
    WritesFor .ROL ∧ ∃ (r : Byte) (c : Bool), ShiftGives .ROL 0x00 true r c :=
  ⟨⟨.rolZeroPage 0xFF, _, _, _, _, rfl, zeroPage_writes.1, zeroPage_writes.2.1, zeroPage_writes.2.2, rfl⟩, 0x01, false,
    .inr (.inr (.inl ⟨rfl, rfl, rfl⟩))⟩
theorem witness_Shifts_fault : WriteFaultsFor .LSR :=
  ⟨⟨.lsrAbsolute 0x7FFF, .absolute 0x7FFF, base, _, rfl, rfl, rfl, .inl ⟨rfl, rfl⟩⟩,
    ⟨.lsrAbsolute 0x8000, .absolute 0x8000, base, _, rfl, rfl, rfl, .inr ⟨⟨_, rfl, rfl⟩, rfl⟩⟩⟩

/-! ### Stack and control transfer -/

theorem witness_Pushes_wrap :
    ∃ (s : State) (sp : Byte), sp.toNat = (s.sp.toNat + 255) % 256 ∧ s.sp = 0x00 ∧ Writable s (StackAt s.sp) :=
  ⟨{ base with sp := 0x00 }, 0xFF, rfl, rfl, _, rfl, by decide⟩
theorem witness_Pushes_unmapped : ∃ (s : State) (f : Fault), WriteFaults s (StackAt s.sp) f :=
  ⟨{ base with cfg := highStack, sp := 0xFC }, _, .inl ⟨rfl, rfl⟩⟩
theorem witness_Pushes_rom : ∃ (s : State) (f : Fault), WriteFaults s (StackAt s.sp) f :=
  ⟨{ base with cfg := romStack }, _, .inr ⟨⟨_, rfl, rfl⟩, rfl⟩⟩

theorem witness_Pulls_wrap :
    ∃ (s : State) (sp b : Byte), sp.toNat = (s.sp.toNat + 1) % 256 ∧ s.sp = 0xFF ∧ Reads s (StackAt sp) b :=
  ⟨{ base with sp := 0xFF }, 0x00, 0x00, rfl, rfl, ⟨_, rfl⟩, rfl⟩
theorem witness_Pulls_fault :
    ∃ (s : State) (sp : Byte), sp.toNat = (s.sp.toNat + 1) % 256 ∧ Unmapped s (StackAt sp) :=
  ⟨{ base with cfg := highStack, sp := 0xFB }, 0xFC, rfl, rfl⟩

theorem witness_PullSixteen : ∃ w s t, push16 w s = .ok t ∧ s.sp = 0x00 :=
  ⟨0x1234, { base with sp := 0x00 }, _, rfl, rfl⟩

theorem witness_Jmp_pageEnd : ∃ (w : Addr) (s : State) (lo hi : Byte), Reads s w lo ∧ Reads s (JmpHigh w) hi ∧ w = 0x02FF :=
  ⟨0x02FF, base, _, _, base_reads _ (by decide), base_reads _ (by decide), rfl⟩
theorem witness_Jmp_lowFault : ∃ (w : Addr) (s : State) (f : Fault), PointerFaults s w (JmpHigh w) f :=
  ⟨0x0800, base, _, .inl ⟨rfl, rfl⟩⟩
theorem witness_Jmp_highFault : ∃ (w : Addr) (s : State) (f : Fault), PointerFaults s w (JmpHigh w) f :=
  ⟨0x01FF, { base with cfg := highStack }, _, .inr ⟨⟨_, rfl⟩, rfl, rfl⟩⟩

/-- SP = 0x00 at the call. -/
theorem witness_Jsr :
    ∃ (s : State) (sp1 sp2 : Byte), sp1.toNat = (s.sp.toNat + 255) % 256 ∧ sp2.toNat = (s.sp.toNat + 254) % 256 ∧
      s.sp = 0x00 ∧ Writable s (StackAt s.sp) ∧ Writable s (StackAt sp1) :=
  ⟨{ base with sp := 0x00 }, 0xFF, 0xFE, rfl, rfl, rfl, ⟨_, rfl, by decide⟩, ⟨_, rfl, by decide⟩⟩
/-- The first fault is `witness_Pushes_unmapped`'s; here the second write faults. -/
theorem witness_Jsr_secondFault :
    ∃ (s : State) (sp1 : Byte) (f : Fault), sp1.toNat = (s.sp.toNat + 255) % 256 ∧ Writable s (StackAt s.sp) ∧
      WriteFaults s (StackAt sp1) f :=
  ⟨{ base with cfg := highStack }, 0xFC, _, rfl, ⟨_, rfl, by decide⟩, .inl ⟨rfl, rfl⟩⟩

theorem witness_Rts :
    ∃ (s : State) (sp1 sp2 lo hi : Byte), sp1.toNat = (s.sp.toNat + 1) % 256 ∧ sp2.toNat = (s.sp.toNat + 2) % 256 ∧
      Reads s (StackAt sp1) lo ∧ Reads s (StackAt sp2) hi ∧ s.sp = 0xFE :=
  ⟨{ base with sp := 0xFE }, 0xFF, 0x00, 0x00, 0x00, rfl, rfl, ⟨⟨_, rfl⟩, rfl⟩, ⟨⟨_, rfl⟩, rfl⟩, rfl⟩
theorem witness_Rts_firstFault :
    ∃ (s : State) (sp1 sp2 : Byte) (f : Fault), sp1.toNat = (s.sp.toNat + 1) % 256 ∧
      sp2.toNat = (s.sp.toNat + 2) % 256 ∧ PointerFaults s (StackAt sp1) (StackAt sp2) f :=
  ⟨{ base with cfg := highStack, sp := 0xFB }, 0xFC, 0xFD, _, rfl, rfl, .inl ⟨rfl, rfl⟩⟩
theorem witness_Rts_secondFault :
    ∃ (s : State) (sp1 sp2 : Byte) (f : Fault), sp1.toNat = (s.sp.toNat + 1) % 256 ∧
      sp2.toNat = (s.sp.toNat + 2) % 256 ∧ PointerFaults s (StackAt sp1) (StackAt sp2) f :=
  ⟨{ base with cfg := highStack, sp := 0xFE }, 0xFF, 0x00, _, rfl, rfl, .inr ⟨⟨_, rfl⟩, rfl, rfl⟩⟩

theorem witness_Rti :
    ∃ (s : State) (sp1 sp2 sp3 b lo hi : Byte), sp1.toNat = (s.sp.toNat + 1) % 256 ∧
      sp2.toNat = (s.sp.toNat + 2) % 256 ∧ sp3.toNat = (s.sp.toNat + 3) % 256 ∧ Reads s (StackAt sp1) b ∧
      Reads s (StackAt sp2) lo ∧ Reads s (StackAt sp3) hi ∧ s.sp = 0xFD :=
  ⟨{ base with sp := 0xFD }, 0xFE, 0xFF, 0x00, 0x00, 0x00, 0x00, rfl, rfl, rfl, ⟨⟨_, rfl⟩, rfl⟩, ⟨⟨_, rfl⟩, rfl⟩,
    ⟨⟨_, rfl⟩, rfl⟩, rfl⟩
theorem witness_Rti_firstFault :
    ∃ (s : State) (sp1 : Byte), sp1.toNat = (s.sp.toNat + 1) % 256 ∧ Unmapped s (StackAt sp1) :=
  ⟨{ base with cfg := highStack, sp := 0xFB }, 0xFC, rfl, rfl⟩
theorem witness_Rti_laterFault :
    ∃ (s : State) (sp1 sp2 sp3 : Byte) (f : Fault), sp1.toNat = (s.sp.toNat + 1) % 256 ∧
      sp2.toNat = (s.sp.toNat + 2) % 256 ∧ sp3.toNat = (s.sp.toNat + 3) % 256 ∧ Mapped s (StackAt sp1) ∧
      PointerFaults s (StackAt sp2) (StackAt sp3) f :=
  ⟨{ base with cfg := highStack, sp := 0xFD }, 0xFE, 0xFF, 0x00, _, rfl, rfl, rfl, ⟨_, rfl⟩,
    .inr ⟨⟨_, rfl⟩, rfl, rfl⟩⟩

/-- The hypotheses of the statement about BRK that all its clauses share. -/
abbrev BrkFrame (s : State) (sp1 sp2 sp3 : Byte) : Prop :=
  s.cfg.brkMode = .vector ∧ sp1.toNat = (s.sp.toNat + 255) % 256 ∧ sp2.toNat = (s.sp.toNat + 254) % 256 ∧
    sp3.toNat = (s.sp.toNat + 253) % 256

theorem witness_Brk :
    ∃ s sp1 sp2 sp3 lo hi, BrkFrame s sp1 sp2 sp3 ∧ Writable s (StackAt s.sp) ∧ Writable s (StackAt sp1) ∧
      Writable s (StackAt sp2) ∧ Reads s 0xFFFE lo ∧ Reads s 0xFFFF hi ∧ s.sp = 0x01 :=
  ⟨{ base with sp := 0x01 }, 0x00, 0xFF, 0xFE, 0x00, 0x00, ⟨rfl, rfl, rfl, rfl⟩, ⟨_, rfl, by decide⟩,
    ⟨_, rfl, by decide⟩, ⟨_, rfl, by decide⟩, ⟨⟨_, rfl⟩, rfl⟩, ⟨⟨_, rfl⟩, rfl⟩, rfl⟩
theorem witness_Brk_vectorFault :
    ∃ s sp1 sp2 sp3 f, BrkFrame s sp1 sp2 sp3 ∧ Writable s (StackAt s.sp) ∧ Writable s (StackAt sp1) ∧
      Writable s (StackAt sp2) ∧ PointerFaults s 0xFFFE 0xFFFF f :=
  ⟨{ base with cfg := noVector }, 0xFC, 0xFB, 0xFA, _, ⟨rfl, rfl, rfl, rfl⟩, ⟨_, rfl, by decide⟩, ⟨_, rfl, by decide⟩,
    ⟨_, rfl, by decide⟩, .inl ⟨rfl, rfl⟩⟩
theorem witness_Brk_firstFault :
    ∃ s sp1 sp2 sp3 f, BrkFrame s sp1 sp2 sp3 ∧ WriteFaults s (StackAt s.sp) f :=
  ⟨{ base with cfg := romStack }, 0xFC, 0xFB, 0xFA, _, ⟨rfl, rfl, rfl, rfl⟩, .inr ⟨⟨_, rfl, rfl⟩, rfl⟩⟩
theorem witness_Brk_secondFault :
    ∃ s sp1 sp2 sp3 f, BrkFrame s sp1 sp2 sp3 ∧ Writable s (StackAt s.sp) ∧ WriteFaults s (StackAt sp1) f :=
  ⟨{ base with cfg := highStack }, 0xFC, 0xFB, 0xFA, _, ⟨rfl, rfl, rfl, rfl⟩, ⟨_, rfl, by decide⟩, .inl ⟨rfl, rfl⟩⟩
theorem witness_Brk_thirdFault :
    ∃ s sp1 sp2 sp3 f, BrkFrame s sp1 sp2 sp3 ∧ Writable s (StackAt s.sp) ∧ Writable s (StackAt sp1) ∧
      WriteFaults s (StackAt sp2) f :=
  ⟨{ base with cfg := higherStack }, 0xFC, 0xFB, 0xFA, _, ⟨rfl, rfl, rfl, rfl⟩, ⟨_, rfl, by decide⟩,
    ⟨_, rfl, by decide⟩, .inl ⟨rfl, rfl⟩⟩
theorem witness_BrkRefused :
    ∃ s : State, s.cfg.brkMode = .refuse ∧ s.run = .running ∧ Reads s s.pc 0x00 ∧
      Moves s { s with run := .refused 0x00 s.pc } :=
  ⟨{ base with cfg := { testConfig with brkMode := .refuse } }, rfl, rfl, ⟨⟨_, rfl⟩, rfl⟩, rfl,
    .inr (.inr (.inr (.inl ⟨_, _, rfl, rfl⟩)))⟩

/-! ### Frames and whole-machine properties -/

/-- NOP meets the hypotheses of every clause of the register, flag and memory frames, and of the last statement. -/
theorem witness_Frames_nop :
    ∃ s t, exec .nop s = .next t ∧
      Instr.nop.mnemonic ∉ [Mnemonic.LDA, .TXA, .TYA, .PLA, .AND, .ORA, .EOR, .ADC, .SBC, .ASL, .LSR, .ROL, .ROR, .LDX,
        .TAX, .TSX, .INX, .DEX, .LDY, .TAY, .INY, .DEY, .TXS, .PHA, .PHP, .PLP, .JSR, .RTS, .RTI, .BRK, .JMP, .BCC,
        .BCS, .BEQ, .BNE, .BMI, .BPL, .BVC, .BVS, .CMP, .CPX, .CPY, .SEC, .CLC, .BIT, .CLV, .SEI, .CLI, .SED, .CLD,
        .INC, .DEC, .STA, .STX, .STY] :=
  ⟨base, _, rfl, by decide⟩

/-- The accumulator form of a shift is one that leaves memory. -/
theorem witness_OtherForms_accumulator :
    ∃ s t, exec .rolAccumulator s = .next t ∧ ¬ (Instr.rolAccumulator.mnemonic ∈ [Mnemonic.INC, .DEC, .ASL, .LSR, .ROL, .ROR] ∧
      Instr.rolAccumulator.operand ≠ .accumulator) :=
  ⟨base, _, rfl, fun h => h.2 rfl⟩

theorem witness_StoringForms :
    ∃ i m s t ea, exec i s = .next t ∧ i.mnemonic = .INC ∧ i.operand = .ea m ∧
      effectiveAddr m (s.advancePc i.operand.length) = .ok ea :=
  ⟨.incZeroPageX 0xFF, .zeroPageX 0xFF, { base with x := 0x01 }, _, 0x0000, rfl, rfl, rfl, rfl⟩

theorem witness_PushFrames_PHA : ∃ s t, exec .pha s = .next t ∧ Instr.pha.mnemonic ∈ [Mnemonic.PHA, .PHP] :=
  ⟨{ base with sp := 0x00 }, _, rfl, by decide⟩
theorem witness_PushFrames_JSR : ∃ s t, exec (.jsr 0x0700) s = .next t ∧ (Instr.jsr 0x0700).mnemonic = .JSR :=
  ⟨{ base with sp := 0x00 }, _, rfl, rfl⟩
theorem witness_PushFrames_BRK : ∃ s t, exec .brk s = .next t ∧ Instr.brk.mnemonic = .BRK :=
  ⟨{ base with sp := 0x01 }, _, rfl, rfl⟩

/-- After the call: the state right after it meets the rest. -/
theorem witness_RtsReturnsAfterJsr :
    ∃ w s t u, exec (.jsr w) s = .next t ∧ u.cfg = t.cfg ∧ u.sp = t.sp ∧ SameByte t u (StackAt s.sp) ∧
      SameByte t u (StackAt (s.sp - 1#8)) ∧ s.cfg.returnBias = 1 :=
  ⟨0x0700, { base with sp := 0x00, cfg := { testConfig with returnBias := 1 } }, _, _, rfl, rfl, rfl, rfl, rfl, rfl⟩
theorem witness_RtiReturnsAfterBrk :
    ∃ s t u, exec .brk s = .next t ∧ u.cfg = t.cfg ∧ u.sp = t.sp ∧ SameByte t u (StackAt s.sp) ∧
      SameByte t u (StackAt (s.sp - 1#8)) ∧ SameByte t u (StackAt (s.sp - 2#8)) :=
  ⟨{ base with sp := 0x01 }, _, _, rfl, rfl, rfl, rfl, rfl, rfl⟩
theorem witness_PlpRestoresWhatPhpPushed :
    ∃ s t u, exec .php s = .next t ∧ u.cfg = t.cfg ∧ u.sp = t.sp ∧ SameByte t u (StackAt s.sp) ∧ u.p ≠ t.p := by
  refine ⟨base, _, { base with sp := 0xFC, mem := [(0x01FD, 0x34)], p := flags 0xCB }, rfl, rfl, rfl, rfl, ?_⟩
  decide
theorem witness_DecimalAndInterrupt : (Instr.adcImmediate 0x0C).mnemonic ∉ [Mnemonic.PHP, .BRK] := by decide

end Sys2Proof.Tests
end

section
/-! Proofs of the statements about the state: the invariant, start-up, the status byte, the run status. -/

namespace Sys2Proof.Proofs

open Sys2Proof.Machine Sys2Proof.Claims

/-! ### The status byte (R28, R29) -/

/-- `to_int` puts each flag at its bit. -/
theorem toInt_getLsbD (p : Flags) :
    p.toInt.getLsbD 0 = p.c ∧ p.toInt.getLsbD 1 = p.z ∧ p.toInt.getLsbD 2 = p.i ∧ p.toInt.getLsbD 3 = p.d ∧
      p.toInt.getLsbD 4 = p.b4 ∧ p.toInt.getLsbD 5 = p.b5 ∧ p.toInt.getLsbD 6 = p.v ∧ p.toInt.getLsbD 7 = p.n := by
  obtain ⟨c, z, i, d, b4, b5, v, n⟩ := p
  revert c z i d b4 b5 v n
  decide

theorem fromIntBit_eq (b : Byte) (ignored : List Nat) (k : Nat) (old : Bool) :
    fromIntBit b ignored k old = if k ∈ ignored then old else b.getLsbD k := by
  simp [fromIntBit]

/-- A status byte with bits 4 and 5 clear stays clear there when packed (R31). -/
theorem toInt_and_unused {p : Flags} (h4 : p.b4 = false) (h5 : p.b5 = false) : p.toInt &&& 0x30#8 = 0#8 := by
  obtain ⟨c, z, i, d, b4, b5, v, n⟩ := p
  subst h4 h5
  revert c z i d v n
  decide

/-- Settles O14: every bit of the packed byte is its flag, and every flag taken from the byte is its bit. -/
theorem statusBytePacksAndUnpacks : Obligations.StatusBytePacksAndUnpacks := by
  refine ⟨toInt_getLsbD, fun b ignored p => ?_, fun p q => ?_⟩
  · simp only [Flags.fromInt, fromIntBit_eq, and_self]
  · obtain ⟨hc, hz, hi, hd, h4, h5, hv, hn⟩ := toInt_getLsbD p
    simp only [Flags.fromInt, fromIntBit_eq, List.not_mem_nil, if_false, hc, hz, hi, hd, h4, h5, hv, hn]

/-! ### Start-up (R36) -/

/-- Settles O15: each field of the state after start-up is the value R36 gives. -/
theorem startUpLeavesTheResetValues : Obligations.StartUpLeavesTheResetValues := by
  refine ⟨fun cfg => ?_, rfl⟩
  simp only [State.start, Flags.startup, true_and]
  decide

theorem inv_start {cfg : Config} (h : cfg.WellFormed) : Inv (State.start cfg) where
  cfg := h
  mem := h.2.1
  owned := h.2.2
  b4 := rfl
  b5 := rfl
  trace := by simp [State.start]

/-- Settles O16: start-up memory is the canonical, owned initial memory, and there is no record yet. -/
theorem startUpMeetsTheInvariant : Obligations.StartUpMeetsTheInvariant :=
  ⟨fun _ h => inv_start h, inv_start (cfg := Config.default) (by decide)⟩

/-! ### What every completed step keeps -/

/-- A completed step is one instruction, which keeps what every instruction keeps, and one record of the state before
it (R80, R89). -/
theorem step_kept {s u : State} (h : step s = .next u) :
    s.run = .running ∧ ∃ t m operands, Kept s t ∧ u = t.emit (traceRecord s m operands) := by
  obtain ⟨hr, row, bs, t, -, he, rfl⟩ := step_next_iff.1 h
  exact ⟨hr, t, _, _, exec_kept he, rfl⟩

/-- An instruction keeps the invariant. -/
theorem inv_of_kept {s t : State} (hi : Inv s) (hk : Kept s t) : Inv t where
  cfg := hk.cfg ▸ hi.cfg
  mem := hk.mem.wf hi.mem
  owned := hk.cfg ▸ hk.mem.owned hi.owned
  b4 := hk.b4.trans hi.b4
  b5 := hk.b5.trans hi.b5
  trace := hk.trace ▸ hi.trace

/-- A record with bits 4 and 5 clear keeps the invariant (R31). -/
theorem inv_emit {t : State} {r : TraceRecord} (hi : Inv t) (hr : r.p &&& 0x30#8 = 0#8) : Inv (t.emit r) where
  cfg := hi.cfg
  mem := hi.mem
  owned := hi.owned
  b4 := hi.b4
  b5 := hi.b5
  trace := List.forall_mem_cons.2 ⟨hr, hi.trace⟩

/-- Settles O17: the instruction keeps the invariant, and the record packs a P with bits 4 and 5 clear. -/
theorem everyStepKeepsTheInvariant : Obligations.EveryStepKeepsTheInvariant := by
  intro s u hi h
  obtain ⟨-, t, m, operands, hk, rfl⟩ := step_kept h
  exact inv_emit (inv_of_kept hi hk) (toInt_and_unused hi.b4 hi.b5)

/-- Settles O7: no instruction writes the run status or the trace, and the step adds one record. -/
theorem noInstructionStopsTheRun : Obligations.NoInstructionStopsTheRun := by
  intro s u h
  obtain ⟨hr, t, m, operands, hk, rfl⟩ := step_kept h
  exact ⟨hr, hk.run.trans hr, _, congrArg _ hk.trace⟩

/-- Settles O19: no instruction writes bits 4 and 5 of P, nor does the record. -/
theorem noStepWritesTheUnusedBits : Obligations.NoStepWritesTheUnusedBits := by
  intro s u h
  obtain ⟨-, t, m, operands, hk, rfl⟩ := step_kept h
  exact ⟨hk.b4, hk.b5⟩

/-! ### The moves of the run status (R35, R88, R90, R194) -/

theorem hostHalt_running {s : State} (h : s.run = .running) : hostHalt s = s.setRun .halted := by
  simp [hostHalt, h]

theorem not_moves {s : State} (h : s.run ≠ .running) (t : State) : ¬ Moves s t := fun hm => h hm.1

/-- Settles O8: both a completed step and a move start in a running state. -/
theorem terminalStatusesAreNeverLeft : Obligations.TerminalStatusesAreNeverLeft := by
  intro s hs
  refine ⟨fun t h => hs (step_next_iff.1 h).1, not_moves hs, fun f hf => ?_⟩
  simp [step, hf]

/-- Settles O9: the halt is the last of the moves, and `Halted` is terminal. -/
theorem hostHaltIsEnabledBetweenSteps : Obligations.HostHaltIsEnabledBetweenSteps := by
  intro s hr
  refine ⟨⟨hr, ?_⟩, rfl, not_moves (by simp)⟩
  exact .inr (.inr (.inr (.inr (hostHalt_running hr).symm)))

/-- Where BRK is refused, the moves change the run status alone: the refusal, or the host's halt (R194). -/
theorem moves_of_step_refused {s t : State} {op : Byte} {pc : Addr} (hs : step s = .refused (.brkRefused op pc))
    (hm : Moves s t) : t = s.setRun (.refused op pc) ∨ t = s.setRun .halted := by
  obtain ⟨hr, h | ⟨f, hf, -⟩ | ⟨f, row, -, hf, -⟩ | ⟨op', pc', h, rfl⟩ | rfl⟩ := hm
  · simp [hs] at h
  · simp [step_of_identify_error hr hf] at hs
  · simp [hs] at hf
  · rw [hs] at h
    cases h
    exact .inl rfl
  · exact .inr (hostHalt_running hr)

/-- Identify at a readable 0x00 answers BRK, which has no operand bytes (R63, R81). -/
theorem identify_brk {s : State} (h : Reads s s.pc 0x00) : ∃ row, identify s = .ok (row, []) ∧ row.instr [] = .brk := by
  obtain ⟨row, hl, -, hmode, hinstr⟩ := Laws.TableRow.brk
  refine ⟨row, identify_ok_iff.2 ⟨_, h, hl, ?_⟩, hinstr []⟩
  rw [hmode]
  rfl

/-- Settles O39: BRK is refused before its first effect, so the step and every move leave the state but for the run
status. -/
theorem brkRefusedBeforeAnyEffect : Obligations.BrkRefusedBeforeAnyEffect := by
  intro s hmode
  have hexec : exec .brk s = .refused (.brkRefused 0x00 s.pc) := brk_refuse hmode
  refine ⟨hexec, fun hr hread => ?_⟩
  obtain ⟨row, hi, hinstr⟩ := identify_brk hread
  have hstep : step s = .refused (.brkRefused 0x00 s.pc) := by
    rw [step_of_identify hr hi, hinstr, hexec]
    rfl
  exact ⟨hstep, fun t hm => moves_of_step_refused hstep hm⟩

end Sys2Proof.Proofs
end

section
/-! D and I have no effect on execution (R30, R32, R33, R151): a relation between two runs, carried through the shared
operations. -/

namespace Sys2Proof.Proofs

open Sys2Proof.Machine Sys2Proof.Claims

/-! ### Two runs side by side -/

/-- Both computations raise the same fault, or both answer and `R` relates the answers. -/
inductive Alike {α : Type} (R : α → α → Prop) : Except Fault α → Except Fault α → Prop where
  | ok {a b : α} : R a b → Alike R (.ok a) (.ok b)
  | error (f : Fault) : Alike R (.error f) (.error f)

theorem Alike.refl {α : Type} (x : Except Fault α) : Alike Eq x x := by
  cases x with
  | ok a => exact .ok rfl
  | error f => exact .error f

theorem Alike.bind {α β : Type} {R : α → α → Prop} {Q : β → β → Prop} {x y : Except Fault α}
    {f g : α → Except Fault β} (h : Alike R x y) (hf : ∀ a b, R a b → Alike Q (f a) (g b)) :
    Alike Q (x >>= f) (y >>= g) := by
  cases h with
  | ok hab => exact hf _ _ hab
  | error e => exact .error e

/-- The states agree on everything but D and I. -/
def ButDI (s t : State) : Prop := ∃ d i, t = withDI s d i

/-- What two semantics answer: the states agree but for D and I, the results agree (R84). -/
def EffectAlike (a b : State × Option Byte) : Prop := ButDI a.1 b.1 ∧ a.2 = b.2

/-- What two pulls answer: the same value, and states that agree but for D and I. -/
def PulledAlike {α : Type} (a b : α × State) : Prop := a.1 = b.1 ∧ ButDI a.2 b.2

/-- The generic flag update neither reads nor writes D and I (R85). -/
theorem ButDI.update {s t : State} (h : ButDI s t) (declared : DeclaredFlags) (res : Option Byte) :
    ButDI (s.setP (s.p.update declared res)) (t.setP (t.p.update declared res)) := by
  obtain ⟨d, i, rfl⟩ := h
  cases res <;> exact ⟨d, i, rfl⟩

/-! ### Memory, operands and the stack -/

theorem memRead_alike {s t : State} (h : ButDI s t) (a : Addr) : Alike Eq (memRead s a) (memRead t a) := by
  obtain ⟨d, i, rfl⟩ := h
  exact .refl _

theorem effectiveAddr_alike {s t : State} (h : ButDI s t) (m : EaOperand) :
    Alike Eq (effectiveAddr m s) (effectiveAddr m t) := by
  obtain ⟨d, i, rfl⟩ := h
  have e : effectiveAddr m (withDI s d i) = effectiveAddr m s := by cases m <;> rfl
  rw [e]
  exact .refl _

theorem getData_alike {s t : State} (h : ButDI s t) (src : Source) : Alike Eq (src.getData s) (src.getData t) := by
  cases src with
  | immediate v => exact .refl _
  | ea m =>
    refine (effectiveAddr_alike h m).bind ?_
    rintro ea _ rfl
    exact memRead_alike h ea

theorem memWrite_alike {s t : State} (h : ButDI s t) (a : Addr) (v : Byte) :
    Alike ButDI (memWrite s a v) (memWrite t a v) := by
  obtain ⟨d, i, rfl⟩ := h
  cases hs : memWrite s a v with
  | error f =>
    have hf := memWrite_error_iff.1 hs
    rw [memWrite_error_iff.2 (show WriteFaults (withDI s d i) a f from hf)]
    exact .error f
  | ok u =>
    obtain ⟨hw, rfl⟩ := memWrite_ok_iff.1 hs
    have hw' : Writable (withDI s d i) a := hw
    rw [memWrite_ok_iff.2 ⟨hw', rfl⟩]
    exact .ok ⟨d, i, rfl⟩

theorem resolve_alike {s t : State} (h : ButDI s t) (pl : Place) : Alike Eq (pl.resolve s) (pl.resolve t) := by
  cases pl with
  | accumulator => exact .refl _
  | ea m =>
    refine (effectiveAddr_alike h m).bind ?_
    rintro ea _ rfl
    exact .refl _

theorem targetGetData_alike {s t : State} (h : ButDI s t) (g : Target) : Alike Eq (g.getData s) (g.getData t) := by
  cases g with
  | accumulator =>
    obtain ⟨d, i, rfl⟩ := h
    exact .refl _
  | address ea => exact memRead_alike h ea

theorem putData_alike {s t : State} (h : ButDI s t) (g : Target) (v : Byte) :
    Alike ButDI (g.putData v s) (g.putData v t) := by
  cases g with
  | accumulator =>
    obtain ⟨d, i, rfl⟩ := h
    exact .ok ⟨d, i, rfl⟩
  | address ea => exact memWrite_alike h ea v

theorem push_alike {s t : State} (h : ButDI s t) (v : Byte) : Alike ButDI (push v s) (push v t) := by
  have hsp : t.sp = s.sp := by obtain ⟨d, i, rfl⟩ := h; rfl
  unfold push
  rw [hsp]
  refine (memWrite_alike h _ v).bind fun s1 t1 h1 => ?_
  obtain ⟨d, i, rfl⟩ := h1
  exact .ok ⟨d, i, rfl⟩

theorem push16_alike {s t : State} (h : ButDI s t) (w : Addr) : Alike ButDI (push16 w s) (push16 w t) :=
  (push_alike h _).bind fun _ _ h1 => push_alike h1 _

/-- A pull answers the same byte in both runs. -/
theorem pull_alike {s t : State} (h : ButDI s t) : Alike PulledAlike (pull s) (pull t) := by
  obtain ⟨d, i, rfl⟩ := h
  have h1 : ButDI (s.setSp (s.sp + 1#8)) ((withDI s d i).setSp (s.sp + 1#8)) := ⟨d, i, rfl⟩
  refine (memRead_alike h1 _).bind ?_
  rintro v _ rfl
  exact .ok ⟨rfl, h1⟩

theorem pull16_alike {s t : State} (h : ButDI s t) : Alike PulledAlike (pull16 s) (pull16 t) := by
  refine (pull_alike h).bind ?_
  rintro ⟨lo, s1⟩ ⟨_, t1⟩ ⟨rfl, h1⟩
  refine (pull_alike h1).bind ?_
  rintro ⟨hi, s2⟩ ⟨_, t2⟩ ⟨rfl, h2⟩
  exact .ok ⟨rfl, h2⟩

/-- The return from a trap takes D and I from the stack, whatever they were (R193). -/
theorem returnFromBreak_alike {s t : State} (h : ButDI s t) : Alike ButDI (returnFromBreak s) (returnFromBreak t) := by
  refine (pull_alike h).bind ?_
  rintro ⟨b, s1⟩ ⟨_, _⟩ ⟨rfl, d, i, rfl⟩
  have h2 : ButDI (s1.setP (s1.p.pulled b)) ((withDI s1 d i).setP ((withDI s1 d i).p.pulled b)) := ⟨_, _, rfl⟩
  refine (pull16_alike h2).bind ?_
  rintro ⟨w, s3⟩ ⟨_, _⟩ ⟨rfl, d, i, rfl⟩
  exact .ok ⟨d, i, rfl⟩

/-! ### The shared operations of the instructions -/

/-- The outcomes from two states that differ in D and I alone agree on everything but D and I. -/
def Insensitive (f : State → Host.Outcome State Fault Refusal) : Prop := ∀ s d i, SameButDI (f s) (f (withDI s d i))

/-- An effect that sends states that agree but for D and I to such states, with the same result. -/
def RespectsDI (e : State → State × Option Byte) : Prop := ∀ s d i, EffectAlike (e s) (e (withDI s d i))

/-- An instruction whose semantics is alike in two runs ends alike in both. -/
theorem execute_insensitive {m : Mnemonic} {o : Operand} {sem : State → Effect}
    (hsem : ∀ s t, ButDI s t → Alike EffectAlike (sem s) (sem t)) : Insensitive (execute m o sem) := by
  intro s d i
  have h := hsem (s.advancePc o.length) ((withDI s d i).advancePc o.length) ⟨d, i, rfl⟩
  unfold execute
  generalize sem (s.advancePc o.length) = x, sem ((withDI s d i).advancePc o.length) = y at h
  cases h with
  | error f => rfl
  | @ok a b hab =>
    obtain ⟨u, res⟩ := a
    obtain ⟨u', res'⟩ := b
    obtain ⟨hu, hres⟩ := hab
    cases hres
    exact hu.update m.declaredFlags res

theorem pureEffect_insensitive {m : Mnemonic} {o : Operand} {e : State → State × Option Byte} (he : RespectsDI e) :
    Insensitive (execute m o (pureEffect e)) := by
  refine execute_insensitive ?_
  rintro s _ ⟨d, i, rfl⟩
  exact .ok (he s d i)

theorem reading_insensitive {m : Mnemonic} {o : Operand} {src : Source} {e : Byte → State → State × Option Byte}
    (he : ∀ v, RespectsDI (e v)) : Insensitive (execute m o (reading src e)) := by
  refine execute_insensitive fun s t h => (getData_alike h src).bind ?_
  rintro v _ rfl
  obtain ⟨d, i, rfl⟩ := h
  exact .ok (he v s d i)

theorem store_insensitive {m : Mnemonic} {get : State → Byte} {dst : EaOperand}
    (hget : ∀ s d i, get (withDI s d i) = get s) : Insensitive (store m get dst) := by
  refine execute_insensitive fun s t h => (effectiveAddr_alike h dst).bind ?_
  rintro ea _ rfl
  have hv : get t = get s := by
    obtain ⟨d, i, rfl⟩ := h
    exact hget s d i
  rw [hv]
  exact (memWrite_alike h ea _).bind fun _ _ h1 => .ok ⟨h1, rfl⟩

/-- A read-modify-write is insensitive when its new value does not depend on D and I and its flags agree but for them
(R160). -/
theorem modifying_insensitive {m : Mnemonic} {o : Operand} {pl : Place} {alu : Byte → Flags → Byte × Flags}
    (halu : ∀ v s d i, (alu v s.p).1 = (alu v (withDI s d i).p).1 ∧
      ButDI (s.setP (alu v s.p).2) ((withDI s d i).setP (alu v (withDI s d i).p).2)) :
    Insensitive (execute m o (modifying pl alu)) := by
  refine execute_insensitive fun s t h => (resolve_alike h pl).bind ?_
  rintro g _ rfl
  refine (targetGetData_alike h g).bind ?_
  rintro v _ rfl
  obtain ⟨d, i, rfl⟩ := h
  obtain ⟨hval, hset⟩ := halu v s d i
  have hput : Alike ButDI (g.putData (alu v s.p).1 (s.setP (alu v s.p).2))
      (g.putData (alu v (withDI s d i).p).1 ((withDI s d i).setP (alu v (withDI s d i).p).2)) :=
    hval ▸ putData_alike hset g _
  exact hput.bind fun _ _ h1 => .ok ⟨h1, congrArg some hval⟩

theorem pushing_insensitive {m : Mnemonic} {get : State → Byte} (hget : ∀ s d i, get (withDI s d i) = get s) :
    Insensitive (pushing m get) := by
  refine execute_insensitive ?_
  rintro s _ ⟨d, i, rfl⟩
  rw [hget]
  exact (push_alike ⟨d, i, rfl⟩ _).bind fun _ _ h1 => .ok ⟨h1, rfl⟩

theorem pulling_insensitive {m : Mnemonic} {e : Byte → State → State × Option Byte} (he : ∀ b, RespectsDI (e b)) :
    Insensitive (pulling m e) := by
  refine execute_insensitive fun s t h => (pull_alike h).bind ?_
  rintro ⟨b, s1⟩ ⟨_, _⟩ ⟨rfl, d, i, rfl⟩
  exact .ok (he b s1 d i)

theorem jmp_insensitive (m : EaOperand) : Insensitive (jmp m) := by
  refine execute_insensitive fun s t h => (effectiveAddr_alike h m).bind ?_
  rintro ea _ rfl
  obtain ⟨d, i, rfl⟩ := h
  exact .ok ⟨⟨d, i, rfl⟩, rfl⟩

/-- A branch whose condition reads neither D nor I (R195). -/
theorem branch_insensitive {m : Mnemonic} {cond : Flags → Bool} {offset : Byte}
    (hcond : ∀ s d i, cond (withDI s d i).p = cond s.p) : Insensitive (branch m cond offset) := by
  intro s d i
  rw [branch_eq, branch_eq, hcond]
  exact ⟨d, i, rfl⟩

theorem callSubroutine_insensitive (m : EaOperand) : Insensitive (callSubroutine m) := by
  refine execute_insensitive fun s t h => (effectiveAddr_alike h m).bind ?_
  rintro ea _ rfl
  have hw : t.pc - returnBias t = s.pc - returnBias s := by
    obtain ⟨d, i, rfl⟩ := h
    rfl
  rw [hw]
  refine (push16_alike h _).bind ?_
  rintro u _ ⟨d, i, rfl⟩
  exact .ok ⟨⟨d, i, rfl⟩, rfl⟩

theorem returnFromSubroutine_insensitive : Insensitive returnFromSubroutine := by
  refine execute_insensitive fun s t h => (pull16_alike h).bind ?_
  rintro ⟨w, s1⟩ ⟨_, _⟩ ⟨rfl, d, i, rfl⟩
  have hb : returnBias t = returnBias s := by
    obtain ⟨d, i, rfl⟩ := h
    rfl
  rw [hb]
  exact .ok ⟨⟨d, i, rfl⟩, rfl⟩

theorem rti_insensitive : Insensitive rti :=
  execute_insensitive fun _ _ h => (returnFromBreak_alike h).bind fun _ _ h1 => .ok ⟨h1, rfl⟩

/-! ### The mnemonics -/

theorem lda_insensitive (src : Source) : Insensitive (lda src) :=
  reading_insensitive fun _ _ d i => ⟨⟨d, i, rfl⟩, rfl⟩
theorem ldx_insensitive (src : Source) : Insensitive (ldx src) :=
  reading_insensitive fun _ _ d i => ⟨⟨d, i, rfl⟩, rfl⟩
theorem ldy_insensitive (src : Source) : Insensitive (ldy src) :=
  reading_insensitive fun _ _ d i => ⟨⟨d, i, rfl⟩, rfl⟩
theorem logicAnd_insensitive (src : Source) : Insensitive (logicAnd src) :=
  reading_insensitive fun _ _ d i => ⟨⟨d, i, rfl⟩, rfl⟩
theorem logicOra_insensitive (src : Source) : Insensitive (logicOra src) :=
  reading_insensitive fun _ _ d i => ⟨⟨d, i, rfl⟩, rfl⟩
theorem logicEor_insensitive (src : Source) : Insensitive (logicEor src) :=
  reading_insensitive fun _ _ d i => ⟨⟨d, i, rfl⟩, rfl⟩
/-- ADC adds in binary, whatever D is (R151). -/
theorem adc_insensitive (src : Source) : Insensitive (adc src) :=
  reading_insensitive fun _ _ d i => ⟨⟨d, i, rfl⟩, rfl⟩
/-- SBC subtracts in binary, whatever D is (R151). -/
theorem sbc_insensitive (src : Source) : Insensitive (sbc src) :=
  reading_insensitive fun _ _ d i => ⟨⟨d, i, rfl⟩, rfl⟩
theorem compareA_insensitive (src : Source) : Insensitive (compareA src) :=
  reading_insensitive fun _ _ d i => ⟨⟨d, i, rfl⟩, rfl⟩
theorem compareX_insensitive (src : Source) : Insensitive (compareX src) :=
  reading_insensitive fun _ _ d i => ⟨⟨d, i, rfl⟩, rfl⟩
theorem compareY_insensitive (src : Source) : Insensitive (compareY src) :=
  reading_insensitive fun _ _ d i => ⟨⟨d, i, rfl⟩, rfl⟩
theorem bit_insensitive (src : Source) : Insensitive (bit src) :=
  reading_insensitive fun _ _ d i => ⟨⟨d, i, rfl⟩, rfl⟩
theorem sta_insensitive (m : EaOperand) : Insensitive (sta m) := store_insensitive fun _ _ _ => rfl
theorem stx_insensitive (m : EaOperand) : Insensitive (stx m) := store_insensitive fun _ _ _ => rfl
theorem sty_insensitive (m : EaOperand) : Insensitive (sty m) := store_insensitive fun _ _ _ => rfl
theorem inc_insensitive (pl : Place) : Insensitive (inc pl) := modifying_insensitive fun _ _ d i => ⟨rfl, d, i, rfl⟩
theorem dec_insensitive (pl : Place) : Insensitive (dec pl) := modifying_insensitive fun _ _ d i => ⟨rfl, d, i, rfl⟩
theorem asl_insensitive (pl : Place) : Insensitive (asl pl) := modifying_insensitive fun _ _ d i => ⟨rfl, d, i, rfl⟩
theorem lsr_insensitive (pl : Place) : Insensitive (lsr pl) := modifying_insensitive fun _ _ d i => ⟨rfl, d, i, rfl⟩
theorem rol_insensitive (pl : Place) : Insensitive (rol pl) := modifying_insensitive fun _ _ d i => ⟨rfl, d, i, rfl⟩
theorem ror_insensitive (pl : Place) : Insensitive (ror pl) := modifying_insensitive fun _ _ d i => ⟨rfl, d, i, rfl⟩

/-- Every instruction but PHP and BRK, which push D and I, is insensitive to them. -/
theorem exec_insensitive {ins : Instr} (hphp : ins ≠ .php) (hbrk : ins ≠ .brk) : Insensitive (exec ins) := by
  intro s d i
  cases ins <;> simp only [exec]
  case ldaImmediate | ldaZeroPage | ldaZeroPageX | ldaAbsolute | ldaAbsoluteX | ldaAbsoluteY | ldaIndexedIndirect |
      ldaIndirectIndexed => exact lda_insensitive _ s d i
  case ldxImmediate | ldxZeroPage | ldxZeroPageY | ldxAbsolute | ldxAbsoluteY => exact ldx_insensitive _ s d i
  case ldyImmediate | ldyZeroPage | ldyZeroPageX | ldyAbsolute | ldyAbsoluteX => exact ldy_insensitive _ s d i
  case staZeroPage | staZeroPageX | staAbsolute | staAbsoluteX | staAbsoluteY | staIndexedIndirect |
      staIndirectIndexed => exact sta_insensitive _ s d i
  case stxZeroPage | stxZeroPageY | stxAbsolute => exact stx_insensitive _ s d i
  case styZeroPage | styZeroPageX | styAbsolute => exact sty_insensitive _ s d i
  case andImmediate | andZeroPage | andZeroPageX | andAbsolute | andAbsoluteX | andAbsoluteY | andIndexedIndirect |
      andIndirectIndexed => exact logicAnd_insensitive _ s d i
  case oraImmediate | oraZeroPage | oraZeroPageX | oraAbsolute | oraAbsoluteX | oraAbsoluteY | oraIndexedIndirect |
      oraIndirectIndexed => exact logicOra_insensitive _ s d i
  case eorImmediate | eorZeroPage | eorZeroPageX | eorAbsolute | eorAbsoluteX | eorAbsoluteY | eorIndexedIndirect |
      eorIndirectIndexed => exact logicEor_insensitive _ s d i
  case adcImmediate | adcZeroPage | adcZeroPageX | adcAbsolute | adcAbsoluteX | adcAbsoluteY | adcIndexedIndirect |
      adcIndirectIndexed => exact adc_insensitive _ s d i
  case sbcImmediate | sbcZeroPage | sbcZeroPageX | sbcAbsolute | sbcAbsoluteX | sbcAbsoluteY | sbcIndexedIndirect |
      sbcIndirectIndexed => exact sbc_insensitive _ s d i
  case cmpImmediate | cmpZeroPage | cmpZeroPageX | cmpAbsolute | cmpAbsoluteX | cmpAbsoluteY | cmpIndexedIndirect |
      cmpIndirectIndexed => exact compareA_insensitive _ s d i
  case cpxImmediate | cpxZeroPage | cpxAbsolute => exact compareX_insensitive _ s d i
  case cpyImmediate | cpyZeroPage | cpyAbsolute => exact compareY_insensitive _ s d i
  case bitZeroPage | bitAbsolute => exact bit_insensitive _ s d i
  case incZeroPage | incZeroPageX | incAbsolute | incAbsoluteX => exact inc_insensitive _ s d i
  case decZeroPage | decZeroPageX | decAbsolute | decAbsoluteX => exact dec_insensitive _ s d i
  case aslAccumulator | aslZeroPage | aslZeroPageX | aslAbsolute | aslAbsoluteX => exact asl_insensitive _ s d i
  case lsrAccumulator | lsrZeroPage | lsrZeroPageX | lsrAbsolute | lsrAbsoluteX => exact lsr_insensitive _ s d i
  case rolAccumulator | rolZeroPage | rolZeroPageX | rolAbsolute | rolAbsoluteX => exact rol_insensitive _ s d i
  case rorAccumulator | rorZeroPage | rorZeroPageX | rorAbsolute | rorAbsoluteX => exact ror_insensitive _ s d i
  case tax | tay | txa | tya | tsx | txs | inx | dex | iny | dey | clc | sec | clv | nop =>
    exact pureEffect_insensitive (fun _ d i => ⟨⟨d, i, rfl⟩, rfl⟩) s d i
  case cli => exact pureEffect_insensitive (fun _ d _ => ⟨⟨d, false, rfl⟩, rfl⟩) s d i
  case sei => exact pureEffect_insensitive (fun _ d _ => ⟨⟨d, true, rfl⟩, rfl⟩) s d i
  case cld => exact pureEffect_insensitive (fun _ _ i => ⟨⟨false, i, rfl⟩, rfl⟩) s d i
  case sed => exact pureEffect_insensitive (fun _ _ i => ⟨⟨true, i, rfl⟩, rfl⟩) s d i
  case pha => exact pushing_insensitive (fun _ _ _ => rfl) s d i
  case php => exact absurd rfl hphp
  case pla => exact pulling_insensitive (fun _ _ d i => ⟨⟨d, i, rfl⟩, rfl⟩) s d i
  case plp => exact pulling_insensitive (fun _ _ _ _ => ⟨⟨_, _, rfl⟩, rfl⟩) s d i
  case jmpAbsolute | jmpIndirect => exact jmp_insensitive _ s d i
  case jsr => exact callSubroutine_insensitive _ s d i
  case rts => exact returnFromSubroutine_insensitive s d i
  case rti => exact rti_insensitive s d i
  case brk => exact absurd rfl hbrk
  case bcc | bcs | beq | bne | bmi | bpl | bvc | bvs => exact branch_insensitive (fun _ _ _ => rfl) s d i

/-- Settles O50: every shared operation sends states that agree but for D and I to such states, with the same fault or
the same result; only PHP and BRK push the two flags. -/
theorem decimalAndInterruptFlagsHaveNoEffect : Obligations.DecimalAndInterruptFlagsHaveNoEffect := by
  intro ins s d i hm
  have hphp : ins ≠ .php := by
    rintro rfl
    exact hm (by decide)
  have hbrk : ins ≠ .brk := by
    rintro rfl
    exact hm (by decide)
  exact exec_insensitive hphp hbrk s d i

end Sys2Proof.Proofs
end

section
/-! The fields a completed instruction can write, by mnemonic, and the frames over all instructions that follow (R20 to
R26, R30, R71, R180 to R188). -/

namespace Sys2Proof.Proofs

open Sys2Proof.Machine Sys2Proof.Claims

/-! ### What an instruction can change -/

/-- `Changes i s t`: `t` differs from `s` in the fields the rule of `i` lets it write. The values are left open but for
PCpost and for what a push does to SP and memory. -/
inductive Changes (i : Instr) (s : State) : State → Prop where
  | accumulator {v : Byte} {z n : Bool} (hm : i.mnemonic ∈ [.LDA, .TXA, .TYA, .AND, .ORA, .EOR]) :
      Changes i s { s with pc := pcPost i s, a := v, p := { s.p with z := z, n := n } }
  | arithmetic {r : Byte} {c z v n : Bool} (hm : i.mnemonic ∈ [.ADC, .SBC]) :
      Changes i s { s with pc := pcPost i s, a := r, p := { s.p with c := c, z := z, v := v, n := n } }
  | indexX {v : Byte} {z n : Bool} (hm : i.mnemonic ∈ [.LDX, .TAX, .TSX, .INX, .DEX]) :
      Changes i s { s with pc := pcPost i s, x := v, p := { s.p with z := z, n := n } }
  | indexY {v : Byte} {z n : Bool} (hm : i.mnemonic ∈ [.LDY, .TAY, .INY, .DEY]) :
      Changes i s { s with pc := pcPost i s, y := v, p := { s.p with z := z, n := n } }
  | stackPointer {v : Byte} (hm : i.mnemonic = .TXS) : Changes i s { s with pc := pcPost i s, sp := v }
  | store {m : Memory} (hm : i.mnemonic ∈ [.STA, .STX, .STY]) : Changes i s { s with pc := pcPost i s, mem := m }
  | compare {c z n : Bool} (hm : i.mnemonic ∈ [.CMP, .CPX, .CPY]) :
      Changes i s { s with pc := pcPost i s, p := { s.p with c := c, z := z, n := n } }
  | bitTest {z v n : Bool} (hm : i.mnemonic = .BIT) :
      Changes i s { s with pc := pcPost i s, p := { s.p with z := z, v := v, n := n } }
  | adjust {m : Memory} {z n : Bool} (hm : i.mnemonic ∈ [.INC, .DEC]) :
      Changes i s { s with pc := pcPost i s, mem := m, p := { s.p with z := z, n := n } }
  | shiftAccumulator {v : Byte} {c z n : Bool} (hm : i.mnemonic ∈ [.ASL, .LSR, .ROL, .ROR])
      (ho : i.operand = .accumulator) :
      Changes i s { s with pc := pcPost i s, a := v, p := { s.p with c := c, z := z, n := n } }
  | shiftMemory {m : Memory} {c z n : Bool} (hm : i.mnemonic ∈ [.ASL, .LSR, .ROL, .ROR]) :
      Changes i s { s with pc := pcPost i s, mem := m, p := { s.p with c := c, z := z, n := n } }
  | push {v : Byte} (hm : i.mnemonic ∈ [.PHA, .PHP]) :
      Changes i s { s with pc := pcPost i s, sp := s.sp - 1#8, mem := Memory.write s.mem (StackAt s.sp).toNat v }
  | pullAccumulator {v sp : Byte} {z n : Bool} (hm : i.mnemonic = .PLA) :
      Changes i s { s with pc := pcPost i s, sp := sp, a := v, p := { s.p with z := z, n := n } }
  | pullStatus {b sp : Byte} (hm : i.mnemonic = .PLP) :
      Changes i s { s with pc := pcPost i s, sp := sp, p := PulledP b s.p }
  | jump {w : Addr} (hm : i.mnemonic ∈ [.JMP, .BCC, .BCS, .BEQ, .BNE, .BMI, .BPL, .BVC, .BVS]) :
      Changes i s { s with pc := w }
  | call {w : Addr} {h l : Byte} (hm : i.mnemonic = .JSR) :
      Changes i s { s with
        pc := w
        sp := s.sp - 1#8 - 1#8
        mem := Memory.write (Memory.write s.mem (StackAt s.sp).toNat h) (StackAt (s.sp - 1#8)).toNat l }
  | returnFromCall {w : Addr} {sp : Byte} (hm : i.mnemonic = .RTS) : Changes i s { s with pc := w, sp := sp }
  | returnFromTrap {w : Addr} {b sp : Byte} (hm : i.mnemonic = .RTI) :
      Changes i s { s with pc := w, sp := sp, p := PulledP b s.p }
  | trap {w : Addr} (hm : i.mnemonic = .BRK) : Changes i s ((breakPushed (s.advancePc 0)).setPc w)
  | carry {c : Bool} (hm : i.mnemonic ∈ [.CLC, .SEC]) :
      Changes i s { s with pc := pcPost i s, p := { s.p with c := c } }
  | interruptDisable {f : Bool} (hm : i.mnemonic ∈ [.CLI, .SEI]) :
      Changes i s { s with pc := pcPost i s, p := { s.p with i := f } }
  | decimal {d : Bool} (hm : i.mnemonic ∈ [.CLD, .SED]) :
      Changes i s { s with pc := pcPost i s, p := { s.p with d := d } }
  | overflow {v : Bool} (hm : i.mnemonic = .CLV) : Changes i s { s with pc := pcPost i s, p := { s.p with v := v } }
  | nop (hm : i.mnemonic = .NOP) : Changes i s { s with pc := pcPost i s }

/-- The state an instruction ends in: the generic flag update on what its semantics answers (R85). -/
def completed (m : Mnemonic) (r : State × Option Byte) : State := r.1.setP (r.1.p.update m.declaredFlags r.2)

section
variable {i : Instr} {s t : State}

theorem advancePc_of_operand {o : Operand} (ho : i.operand = o) (s : State) :
    s.advancePc o.length = s.setPc (pcPost i s) := ho ▸ advancePc_eq i s

theorem reading_changes {m : Mnemonic} {src : Source} {e : Byte → State → State × Option Byte}
    (h : execute m src.operand (reading src e) s = .next t) (ho : i.operand = src.operand)
    (he : ∀ v, Changes i s (completed m (e v (s.setPc (pcPost i s))))) : Changes i s t := by
  obtain ⟨v, -, rfl⟩ := reading_next_iff.1 h
  rw [advancePc_of_operand ho]
  exact he v

theorem pureEffect_changes {m : Mnemonic} {o : Operand} {e : State → State × Option Byte}
    (h : execute m o (pureEffect e) s = .next t) (ho : i.operand = o)
    (he : Changes i s (completed m (e (s.setPc (pcPost i s))))) : Changes i s t := by
  rw [pureEffect_next, advancePc_of_operand ho] at h
  cases h
  exact he

theorem store_changes {m : Mnemonic} {get : State → Byte} {dst : EaOperand} (h : store m get dst s = .next t)
    (ho : i.operand = .ea dst) (hm : i.mnemonic ∈ [.STA, .STX, .STY]) : Changes i s t := by
  obtain ⟨ea, -, -, rfl⟩ := store_next_iff.1 h
  rw [advancePc_of_operand ho]
  exact .store hm

theorem adjust_changes {m : Mnemonic} {f : Byte → Byte} {dst : EaOperand} (h : adjust m f (.ea dst) s = .next t)
    (ho : i.operand = .ea dst) (hm : i.mnemonic ∈ [.INC, .DEC]) : Changes i s t := by
  obtain ⟨ea, v, -, -, -, rfl⟩ := modifying_next_iff.1 h
  rw [advancePc_of_operand ho]
  exact .adjust hm

theorem shift_changes {m : Mnemonic} {f : Byte → Bool → AluCarry} {pl : Place} (h : shift m f pl s = .next t)
    (ho : i.operand = pl.operand) (hm : i.mnemonic ∈ [.ASL, .LSR, .ROL, .ROR]) : Changes i s t := by
  cases pl with
  | accumulator =>
    have hpc : s.advancePc 0 = s.setPc (pcPost i s) := advancePc_of_operand ho s
    rw [shift, modifying_accumulator_next, hpc] at h
    cases h
    exact .shiftAccumulator hm ho
  | ea dst =>
    have hpc : s.advancePc (Operand.ea dst).length = s.setPc (pcPost i s) := advancePc_of_operand ho s
    obtain ⟨ea, v, -, -, -, rfl⟩ := modifying_next_iff.1 h
    rw [hpc]
    exact .shiftMemory hm

theorem pushing_changes {m : Mnemonic} {get : State → Byte} (h : pushing m get s = .next t)
    (ho : i.operand = .implicit) (hm : i.mnemonic ∈ [.PHA, .PHP]) : Changes i s t := by
  have hpc : s.advancePc 0 = s.setPc (pcPost i s) := advancePc_of_operand ho s
  obtain ⟨-, rfl⟩ := pushing_next_iff.1 h
  rw [hpc]
  exact .push hm

theorem pulling_changes {m : Mnemonic} {e : Byte → State → State × Option Byte} (h : pulling m e s = .next t)
    (ho : i.operand = .implicit)
    (he : ∀ b sp, Changes i s (completed m (e b ((s.setPc (pcPost i s)).setSp sp)))) : Changes i s t := by
  have hpc : s.advancePc 0 = s.setPc (pcPost i s) := advancePc_of_operand ho s
  obtain ⟨b, -, rfl⟩ := pulling_next_iff.1 h
  rw [hpc]
  exact he b _

theorem jmp_changes {m : EaOperand} (h : jmp m s = .next t) (hm : i.mnemonic = .JMP) : Changes i s t := by
  obtain ⟨w, -, rfl⟩ := jmp_next_iff.1 h
  exact .jump (by simp [hm])

theorem branch_changes {m : Mnemonic} {cond : Flags → Bool} {offset : Byte} (h : branch m cond offset s = .next t)
    (hm : i.mnemonic ∈ [.BCC, .BCS, .BEQ, .BNE, .BMI, .BPL, .BVC, .BVS]) : Changes i s t := by
  rw [branch_eq] at h
  cases h
  exact .jump (List.mem_cons_of_mem _ hm)

theorem callSubroutine_changes {w : Addr} (h : callSubroutine (.absolute w) s = .next t) (hm : i.mnemonic = .JSR) :
    Changes i s t := by
  obtain ⟨-, -, rfl⟩ := callSubroutine_next_iff.1 h
  exact .call hm

theorem returnFromSubroutine_changes (h : returnFromSubroutine s = .next t) (hm : i.mnemonic = .RTS) :
    Changes i s t := by
  obtain ⟨w, -, rfl⟩ := returnFromSubroutine_next_iff.1 h
  exact .returnFromCall hm

theorem rti_changes (h : rti s = .next t) (hm : i.mnemonic = .RTI) : Changes i s t := by
  rw [rti_eq] at h
  cases hr : returnFromBreak (s.advancePc 0) with
  | error f => simp [hr] at h
  | ok u =>
    obtain ⟨b, w, -, -, rfl⟩ := returnFromBreak_ok_iff.1 hr
    rw [hr] at h
    cases h
    exact .returnFromTrap hm

theorem brk_changes (h : brk s = .next t) (hm : i.mnemonic = .BRK) : Changes i s t := by
  cases hmode : s.cfg.brkMode with
  | refuse => simp [brk_refuse hmode] at h
  | vector =>
    rw [brk_vector hmode] at h
    cases hb : enterBreak (s.advancePc 0) with
    | error f => simp [hb] at h
    | ok u =>
      obtain ⟨-, -, -, w, -, rfl⟩ := enterBreak_ok_iff.1 hb
      rw [hb] at h
      cases h
      exact .trap hm

/-! ### The mnemonics that read an operand -/

section
variable {src : Source}

theorem lda_changes (h : lda src s = .next t) (hm : i.mnemonic = .LDA) (ho : i.operand = src.operand) :
    Changes i s t := reading_changes h ho fun _ => .accumulator (by simp [hm])
theorem ldx_changes (h : ldx src s = .next t) (hm : i.mnemonic = .LDX) (ho : i.operand = src.operand) :
    Changes i s t := reading_changes h ho fun _ => .indexX (by simp [hm])
theorem ldy_changes (h : ldy src s = .next t) (hm : i.mnemonic = .LDY) (ho : i.operand = src.operand) :
    Changes i s t := reading_changes h ho fun _ => .indexY (by simp [hm])
theorem logicAnd_changes (h : logicAnd src s = .next t) (hm : i.mnemonic = .AND) (ho : i.operand = src.operand) :
    Changes i s t := reading_changes h ho fun _ => .accumulator (by simp [hm])
theorem logicOra_changes (h : logicOra src s = .next t) (hm : i.mnemonic = .ORA) (ho : i.operand = src.operand) :
    Changes i s t := reading_changes h ho fun _ => .accumulator (by simp [hm])
theorem logicEor_changes (h : logicEor src s = .next t) (hm : i.mnemonic = .EOR) (ho : i.operand = src.operand) :
    Changes i s t := reading_changes h ho fun _ => .accumulator (by simp [hm])
theorem adc_changes (h : adc src s = .next t) (hm : i.mnemonic = .ADC) (ho : i.operand = src.operand) :
    Changes i s t := reading_changes h ho fun _ => .arithmetic (by simp [hm])
theorem sbc_changes (h : sbc src s = .next t) (hm : i.mnemonic = .SBC) (ho : i.operand = src.operand) :
    Changes i s t := reading_changes h ho fun _ => .arithmetic (by simp [hm])
theorem compareA_changes (h : compareA src s = .next t) (hm : i.mnemonic = .CMP) (ho : i.operand = src.operand) :
    Changes i s t := reading_changes h ho fun _ => .compare (by simp [hm])
theorem compareX_changes (h : compareX src s = .next t) (hm : i.mnemonic = .CPX) (ho : i.operand = src.operand) :
    Changes i s t := reading_changes h ho fun _ => .compare (by simp [hm])
theorem compareY_changes (h : compareY src s = .next t) (hm : i.mnemonic = .CPY) (ho : i.operand = src.operand) :
    Changes i s t := reading_changes h ho fun _ => .compare (by simp [hm])
theorem bit_changes (h : bit src s = .next t) (hm : i.mnemonic = .BIT) (ho : i.operand = src.operand) :
    Changes i s t := reading_changes h ho fun _ => .bitTest hm

end

/-- A completed instruction changes what its rule names. -/
theorem exec_changes (h : exec i s = .next t) : Changes i s t := by
  cases i <;> simp only [exec] at h
  case ldaImmediate | ldaZeroPage | ldaZeroPageX | ldaAbsolute | ldaAbsoluteX | ldaAbsoluteY | ldaIndexedIndirect |
      ldaIndirectIndexed => exact lda_changes h rfl rfl
  case ldxImmediate | ldxZeroPage | ldxZeroPageY | ldxAbsolute | ldxAbsoluteY => exact ldx_changes h rfl rfl
  case ldyImmediate | ldyZeroPage | ldyZeroPageX | ldyAbsolute | ldyAbsoluteX => exact ldy_changes h rfl rfl
  case staZeroPage | staZeroPageX | staAbsolute | staAbsoluteX | staAbsoluteY | staIndexedIndirect |
      staIndirectIndexed | stxZeroPage | stxZeroPageY | stxAbsolute | styZeroPage | styZeroPageX | styAbsolute =>
    exact store_changes h rfl (by simp [Instr.mnemonic])
  case andImmediate | andZeroPage | andZeroPageX | andAbsolute | andAbsoluteX | andAbsoluteY | andIndexedIndirect |
      andIndirectIndexed => exact logicAnd_changes h rfl rfl
  case oraImmediate | oraZeroPage | oraZeroPageX | oraAbsolute | oraAbsoluteX | oraAbsoluteY | oraIndexedIndirect |
      oraIndirectIndexed => exact logicOra_changes h rfl rfl
  case eorImmediate | eorZeroPage | eorZeroPageX | eorAbsolute | eorAbsoluteX | eorAbsoluteY | eorIndexedIndirect |
      eorIndirectIndexed => exact logicEor_changes h rfl rfl
  case adcImmediate | adcZeroPage | adcZeroPageX | adcAbsolute | adcAbsoluteX | adcAbsoluteY | adcIndexedIndirect |
      adcIndirectIndexed => exact adc_changes h rfl rfl
  case sbcImmediate | sbcZeroPage | sbcZeroPageX | sbcAbsolute | sbcAbsoluteX | sbcAbsoluteY | sbcIndexedIndirect |
      sbcIndirectIndexed => exact sbc_changes h rfl rfl
  case cmpImmediate | cmpZeroPage | cmpZeroPageX | cmpAbsolute | cmpAbsoluteX | cmpAbsoluteY | cmpIndexedIndirect |
      cmpIndirectIndexed => exact compareA_changes h rfl rfl
  case cpxImmediate | cpxZeroPage | cpxAbsolute => exact compareX_changes h rfl rfl
  case cpyImmediate | cpyZeroPage | cpyAbsolute => exact compareY_changes h rfl rfl
  case bitZeroPage | bitAbsolute => exact bit_changes h rfl rfl
  case incZeroPage | incZeroPageX | incAbsolute | incAbsoluteX | decZeroPage | decZeroPageX | decAbsolute |
      decAbsoluteX => exact adjust_changes h rfl (by simp [Instr.mnemonic])
  case aslAccumulator | lsrAccumulator | rolAccumulator | rorAccumulator =>
    exact shift_changes (pl := .accumulator) h rfl (by simp [Instr.mnemonic])
  case aslZeroPage | aslZeroPageX | aslAbsolute | aslAbsoluteX | lsrZeroPage | lsrZeroPageX | lsrAbsolute |
      lsrAbsoluteX | rolZeroPage | rolZeroPageX | rolAbsolute | rolAbsoluteX | rorZeroPage | rorZeroPageX |
      rorAbsolute | rorAbsoluteX => exact shift_changes h rfl (by simp [Instr.mnemonic])
  case txa | tya => exact pureEffect_changes h rfl (.accumulator (by simp [Instr.mnemonic]))
  case tax | tsx | inx | dex => exact pureEffect_changes h rfl (.indexX (by simp [Instr.mnemonic]))
  case tay | iny | dey => exact pureEffect_changes h rfl (.indexY (by simp [Instr.mnemonic]))
  case txs => exact pureEffect_changes h rfl (.stackPointer rfl)
  case pha | php => exact pushing_changes h rfl (by simp [Instr.mnemonic])
  case pla => exact pulling_changes h rfl fun _ _ => .pullAccumulator rfl
  case plp => exact pulling_changes h rfl fun _ _ => .pullStatus rfl
  case jmpAbsolute w => exact jmp_changes (m := .absolute w) h rfl
  case jmpIndirect => exact jmp_changes h rfl
  case jsr => exact callSubroutine_changes h rfl
  case rts => exact returnFromSubroutine_changes h rfl
  case rti => exact rti_changes h rfl
  case brk => exact brk_changes h rfl
  case bcc | bcs | beq | bne | bmi | bpl | bvc | bvs => exact branch_changes h (by simp [Instr.mnemonic])
  case clc | sec => exact pureEffect_changes h rfl (.carry (by simp [Instr.mnemonic]))
  case cli | sei => exact pureEffect_changes h rfl (.interruptDisable (by simp [Instr.mnemonic]))
  case cld | sed => exact pureEffect_changes h rfl (.decimal (by simp [Instr.mnemonic]))
  case clv => exact pureEffect_changes h rfl (.overflow rfl)
  case nop => exact pureEffect_changes h rfl (.nop rfl)

end

/-! ### The frames of the registers (R20 to R26) -/

section
variable {i : Instr} {s t : State}

theorem Changes.a_eq (h : Changes i s t) (hm : i.mnemonic ∉ [.LDA, .TXA, .TYA, .PLA, .AND, .ORA, .EOR, .ADC, .SBC])
    (ho : ¬ (i.mnemonic ∈ [.ASL, .LSR, .ROL, .ROR] ∧ i.operand = .accumulator)) : t.a = s.a := by
  cases h with
  | accumulator hw | arithmetic hw | pullAccumulator hw => simp_all
  | shiftAccumulator hw hacc => exact absurd ⟨hw, hacc⟩ ho
  | _ => rfl

theorem Changes.x_eq (h : Changes i s t) (hm : i.mnemonic ∉ [.LDX, .TAX, .TSX, .INX, .DEX]) : t.x = s.x := by
  cases h with
  | indexX hw => exact absurd hw hm
  | _ => rfl

theorem Changes.y_eq (h : Changes i s t) (hm : i.mnemonic ∉ [.LDY, .TAY, .INY, .DEY]) : t.y = s.y := by
  cases h with
  | indexY hw => exact absurd hw hm
  | _ => rfl

theorem Changes.sp_eq (h : Changes i s t)
    (hm : i.mnemonic ∉ [.TXS, .PHA, .PHP, .PLA, .PLP, .JSR, .RTS, .RTI, .BRK]) : t.sp = s.sp := by
  cases h with
  | stackPointer hw | push hw | pullAccumulator hw | pullStatus hw | call hw | returnFromCall hw | returnFromTrap hw
  | trap hw => simp_all
  | _ => rfl

theorem Changes.pc_eq (h : Changes i s t)
    (hm : i.mnemonic ∉ [.JMP, .JSR, .RTS, .RTI, .BRK, .BCC, .BCS, .BEQ, .BNE, .BMI, .BPL, .BVC, .BVS]) :
    t.pc = pcPost i s := by
  cases h with
  | jump hw | call hw | returnFromCall hw | returnFromTrap hw | trap hw => simp_all
  | _ => rfl

/-! ### The frames of the flags (R30, R71) -/

theorem Changes.c_eq (h : Changes i s t)
    (hm : i.mnemonic ∉ [.ADC, .SBC, .CMP, .CPX, .CPY, .ASL, .LSR, .ROL, .ROR, .SEC, .CLC, .PLP, .RTI]) :
    t.p.c = s.p.c := by
  cases h with
  | arithmetic hw | compare hw | shiftAccumulator hw | shiftMemory hw | pullStatus hw | returnFromTrap hw
  | carry hw => simp_all
  | _ => rfl

theorem Changes.zn_eq (h : Changes i s t)
    (hm : i.mnemonic ∉ [.LDA, .LDX, .LDY, .TAX, .TAY, .TXA, .TYA, .TSX, .AND, .ORA, .EOR, .INX, .DEX, .INY, .DEY, .INC,
      .DEC, .PLA, .CMP, .CPX, .CPY, .ASL, .LSR, .ROL, .ROR, .ADC, .SBC, .BIT, .PLP, .RTI]) :
    t.p.z = s.p.z ∧ t.p.n = s.p.n := by
  cases h with
  | accumulator hw | arithmetic hw | indexX hw | indexY hw | compare hw | bitTest hw | adjust hw
  | shiftAccumulator hw | shiftMemory hw | pullAccumulator hw | pullStatus hw | returnFromTrap hw => simp_all
  | _ => exact ⟨rfl, rfl⟩

theorem Changes.v_eq (h : Changes i s t) (hm : i.mnemonic ∉ [.ADC, .SBC, .BIT, .CLV, .PLP, .RTI]) :
    t.p.v = s.p.v := by
  cases h with
  | arithmetic hw | bitTest hw | pullStatus hw | returnFromTrap hw | overflow hw => simp_all
  | _ => rfl

theorem Changes.i_eq (h : Changes i s t) (hm : i.mnemonic ∉ [.SEI, .CLI, .BRK, .PLP, .RTI]) : t.p.i = s.p.i := by
  cases h with
  | pullStatus hw | returnFromTrap hw | trap hw | interruptDisable hw => simp_all
  | _ => rfl

theorem Changes.d_eq (h : Changes i s t) (hm : i.mnemonic ∉ [.SED, .CLD, .PLP, .RTI]) : t.p.d = s.p.d := by
  cases h with
  | pullStatus hw | returnFromTrap hw | decimal hw => simp_all
  | _ => rfl

/-! ### The frame of the pushes (R26, R180, R182, R188) -/

/-- A write at a stack address leaves every other address. -/
theorem read_write_stackAt (m : Memory) (sp v : Byte) {a : Addr} (h : a ≠ StackAt sp) :
    Memory.read (Memory.write m (StackAt sp).toNat v) a.toNat = Memory.read m a.toNat :=
  Memory.read_write_other m v fun e => h (BitVec.eq_of_toNat_eq e)

/-- One byte pushed: PHA and PHP. -/
theorem Changes.push_frame (h : Changes i s t) (hm : i.mnemonic ∈ [.PHA, .PHP]) :
    t.sp = s.sp - 1#8 ∧ ∀ a : Addr, a ≠ StackAt s.sp → SameByte s t a := by
  cases h with
  | push => exact ⟨rfl, fun a ha => read_write_stackAt _ _ _ ha⟩
  | _ => rcases List.mem_pair.1 hm with hm | hm <;> simp_all

/-- Two bytes pushed: JSR. -/
theorem Changes.call_frame (h : Changes i s t) (hm : i.mnemonic = .JSR) :
    t.sp = s.sp - 1#8 - 1#8 ∧ ∀ a : Addr, a ≠ StackAt s.sp → a ≠ StackAt (s.sp - 1#8) → SameByte s t a := by
  cases h with
  | call => exact ⟨rfl, fun a h0 h1 => by rw [SameByte, read_write_stackAt _ _ _ h1, read_write_stackAt _ _ _ h0]⟩
  | _ => simp_all

/-- Three bytes pushed: BRK. -/
theorem Changes.trap_frame (h : Changes i s t) (hm : i.mnemonic = .BRK) :
    t.sp = s.sp - 1#8 - 1#8 - 1#8 ∧ ∀ a : Addr, a ≠ StackAt s.sp → a ≠ StackAt (s.sp - 1#8) →
      a ≠ StackAt (s.sp - 1#8 - 1#8) → SameByte s t a := by
  cases h with
  | trap =>
    refine ⟨rfl, fun a h0 h1 h2 => ?_⟩
    show Memory.read (breakStack (s.advancePc 0)) a.toNat = _
    rw [breakStack, State.advancePc_sp, read_write_stackAt _ _ _ h2, read_write_stackAt _ _ _ h1,
      read_write_stackAt _ _ _ h0, State.advancePc_mem]
  | _ => simp_all

end

/-- Settles O42: the fields a completed instruction changes, register by register; no instruction writes the
parameters, the run status or the trace. -/
theorem registersKeepUnlessNamedWriter : Obligations.RegistersKeepUnlessNamedWriter := by
  intro i s t h
  have hc := exec_changes h
  have hk := exec_kept h
  exact ⟨hc.a_eq, hc.x_eq, hc.y_eq, hc.sp_eq, hc.pc_eq, hk.cfg, hk.run, hk.trace⟩

/-- Settles O43: the fields a completed instruction changes, flag by flag; no instruction writes bits 4 and 5. -/
theorem flagsKeepUnlessNamedWriter : Obligations.FlagsKeepUnlessNamedWriter := by
  intro i s t h
  have hc := exec_changes h
  have hk := exec_kept h
  exact ⟨hc.c_eq, hc.zn_eq, hc.v_eq, hc.i_eq, hc.d_eq, hk.b4, hk.b5⟩

/-- Settles O46: a push writes at `StackAt SP` and moves SP down, once for PHA and PHP, twice for JSR, three times for
BRK. -/
theorem pushesStayInTheStackPage : Obligations.PushesStayInTheStackPage := by
  intro i s t n h hn
  have hc := exec_changes h
  have h0 : s.sp = s.sp - BitVec.ofNat 8 0 := (BitVec.sub_zero _).symm
  have h2 : s.sp - 1#8 - 1#8 = s.sp - BitVec.ofNat 8 2 := by bv_omega
  have h3 : s.sp - 1#8 - 1#8 - 1#8 = s.sp - BitVec.ofNat 8 3 := by bv_omega
  obtain ⟨hm, rfl⟩ | ⟨hm, rfl⟩ | ⟨hm, rfl⟩ := hn
  · obtain ⟨hsp, hmem⟩ := hc.push_frame hm
    exact ⟨hsp, fun a ha => hmem a (h0 ▸ ha 0 (by decide))⟩
  · obtain ⟨hsp, hmem⟩ := hc.call_frame hm
    exact ⟨hsp.trans h2, fun a ha => hmem a (h0 ▸ ha 0 (by decide)) (ha 1 (by decide))⟩
  · obtain ⟨hsp, hmem⟩ := hc.trap_frame hm
    exact ⟨hsp.trans h3, fun a ha => hmem a (h0 ▸ ha 0 (by decide)) (ha 1 (by decide)) (h2 ▸ ha 2 (by decide))⟩

end Sys2Proof.Proofs
end

section
/-! Proofs of the statements about memory: the bus and the owner map, what a completed instruction leaves of memory,
and a table word placed at PC. -/

namespace Sys2Proof.Proofs

open Sys2Proof.Machine Sys2Proof.Claims

/-- Settles O18: an instruction writes at writable addresses alone and keeps the parameters; the record writes
neither. -/
theorem noStepChangesRomOrOwnership : Obligations.NoStepChangesRomOrOwnership := by
  intro s u h
  obtain ⟨-, t, m, operands, hk, rfl⟩ := step_kept h
  exact ⟨hk.cfg, fun a ha => hk.mem.read_eq ha⟩

/-! ### The bus (R41) -/

/-- What the bus reads back at an address it has written (R41, R50). -/
theorem memRead_setMem_same {s : State} {a : Addr} (h : Mapped s a) (v : Byte) :
    memRead (s.setMem (Memory.write s.mem a.toNat v)) a = .ok v :=
  memRead_ok_iff.2 ⟨h, Memory.read_write_same _ _ _⟩

/-- Settles O12: both operations ask for the owner first; a write replaces one cell. -/
theorem busReadsAndWritesOneByte : Obligations.BusReadsAndWritesOneByte := by
  intro s a v
  refine ⟨fun b hb => memRead_ok_iff.2 hb, fun hu => ⟨?_, ?_⟩, fun hrom => ?_, fun hw => ?_⟩
  · exact memRead_error_iff.2 ⟨hu, rfl⟩
  · exact memWrite_error_iff.2 (.inl ⟨hu, rfl⟩)
  · exact memWrite_error_iff.2 (.inr ⟨hrom, rfl⟩)
  · exact ⟨_, memWrite_ok_iff.2 ⟨hw, rfl⟩, memRead_setMem_same hw.mapped v,
      fun b hb => memRead_setMem_other s v hb, rfl⟩

/-! ### The owner map (R42) -/

/-- In a well-formed map two owners that cover one address are the same owner. -/
theorem eq_of_covers {os : List Owner} (hwf : OwnerMapWellFormed os) {o p : Owner} {a : Addr} (ho : o ∈ os)
    (hp : p ∈ os) (hoa : o.start ≤ a ∧ a ≤ o.stop) (hpa : p.start ≤ a ∧ a ≤ p.stop) : o = p := by
  have symm : Std.Symm Owner.Disjoint := ⟨fun _ _ => Or.symm⟩
  by_contra hne
  obtain h | h : o.Disjoint p := hwf.2.forall ho hp hne
  · exact BitVec.not_le.2 h (BitVec.le_trans hpa.1 hoa.2)
  · exact BitVec.not_le.2 h (BitVec.le_trans hoa.1 hpa.2)

/-- An address that a listed owner covers has an owner. -/
theorem ownerOf_of_covers {cfg : Config} {a : Addr} {o : Owner} (ho : o ∈ cfg.owners)
    (hoa : o.start ≤ a ∧ a ≤ o.stop) : ∃ p, ownerOf cfg a = some p :=
  Option.isSome_iff_exists.1 (List.find?_isSome.2 ⟨o, ho, by simpa [Owner.covers] using hoa⟩)

/-- Settles O13: the owner found is listed and covers the address, and ranges that do not overlap allow no other. -/
theorem ownerOfIsTheCoveringOwner : Obligations.OwnerOfIsTheCoveringOwner := by
  intro cfg a o hwf
  refine ⟨ownerOf_covers, fun ⟨ho, hoa⟩ => ?_⟩
  obtain ⟨p, hp⟩ := ownerOf_of_covers ho hoa
  obtain ⟨hmem, hpa⟩ := ownerOf_covers hp
  rw [hp, eq_of_covers hwf ho hmem hoa hpa]

/-! ### What an instruction leaves of memory (R44, R114) -/

section
variable {i : Instr} {s t : State}

/-- An instruction that no rule lets write memory keeps it as it is. -/
theorem Changes.mem_eq (h : Changes i s t) (hs : i.mnemonic ∉ [.STA, .STX, .STY, .PHA, .PHP, .JSR, .BRK])
    (hm : i.mnemonic ∉ [.INC, .DEC, .ASL, .LSR, .ROL, .ROR]) : t.mem = s.mem := by
  cases h with
  | store hw | adjust hw | shiftMemory hw | push hw | call hw | trap hw => simp_all
  | _ => rfl

/-- STA, STX and STY are one operation, a store of some register. -/
theorem exec_storing {dst : EaOperand} (hm : i.mnemonic ∈ [.STA, .STX, .STY]) (ho : i.operand = .ea dst) (s : State) :
    ∃ mn get, exec i s = store mn get dst s := by
  simp only [List.mem_cons, List.not_mem_nil, or_false] at hm
  obtain hm | hm | hm := hm
  · exact ⟨_, _, exec_STA s hm ho⟩
  · exact ⟨_, _, exec_STX s hm ho⟩
  · exact ⟨_, _, exec_STY s hm ho⟩

/-- INC, DEC, the shifts and the rotates are one operation, a read-modify-write with some ALU function (R160). -/
theorem exec_modifying {pl : Place} (hm : i.mnemonic ∈ [.INC, .DEC, .ASL, .LSR, .ROL, .ROR])
    (ho : i.operand = pl.operand) (s : State) :
    ∃ mn alu, exec i s = execute mn pl.operand (modifying pl alu) s := by
  simp only [List.mem_cons, List.not_mem_nil, or_false] at hm
  obtain hm | hm | hm | hm | hm | hm := hm
  · exact ⟨_, _, exec_INC s hm ho⟩
  · exact ⟨_, _, exec_DEC s hm ho⟩
  · exact ⟨_, _, exec_ASL s hm ho⟩
  · exact ⟨_, _, exec_LSR s hm ho⟩
  · exact ⟨_, _, exec_ROL s hm ho⟩
  · exact ⟨_, _, exec_ROR s hm ho⟩

/-- A read-modify-write on the accumulator keeps memory. -/
theorem mem_eq_of_modifying_accumulator (h : exec i s = .next t)
    (hm : i.mnemonic ∈ [.INC, .DEC, .ASL, .LSR, .ROL, .ROR]) (ho : i.operand = .accumulator) : t.mem = s.mem := by
  obtain ⟨mn, alu, he⟩ := exec_modifying (pl := .accumulator) hm ho s
  rw [he, modifying_accumulator_next] at h
  cases h
  rfl

/-- A form that stores at an effective address writes one byte there, the address the resolver answers after the PC
advance (R114, R123 to R125, R160). -/
theorem mem_eq_write_of_storing {m : EaOperand} {ea : Addr} (h : exec i s = .next t)
    (hm : i.mnemonic ∈ [.STA, .STX, .STY, .INC, .DEC, .ASL, .LSR, .ROL, .ROR]) (ho : i.operand = .ea m)
    (hea : effectiveAddr m (s.advancePc i.operand.length) = .ok ea) : ∃ v, t.mem = Memory.write s.mem ea.toNat v := by
  rw [ho] at hea
  obtain hm | hm : i.mnemonic ∈ [.STA, .STX, .STY] ∨ i.mnemonic ∈ [.INC, .DEC, .ASL, .LSR, .ROL, .ROR] :=
    (List.mem_append (s := [Mnemonic.STA, .STX, .STY])).1 hm
  · obtain ⟨mn, get, he⟩ := exec_storing hm ho s
    obtain ⟨ea', hea', -, rfl⟩ := store_next_iff.1 (he ▸ h)
    cases hea.symm.trans hea'
    exact ⟨_, rfl⟩
  · obtain ⟨mn, alu, he⟩ := exec_modifying (pl := .ea m) hm ho s
    obtain ⟨ea', v, hea', -, -, rfl⟩ := modifying_next_iff.1 (he ▸ h)
    cases hea.symm.trans hea'
    exact ⟨_, rfl⟩

end

/-- Settles O44: a read-modify-write that stores nothing works on the accumulator; every other form that stores
nothing has no rule that lets it write memory. -/
theorem otherFormsLeaveMemory : Obligations.OtherFormsLeaveMemory := by
  intro i s t h hs hrmw a
  have hmem : t.mem = s.mem := by
    by_cases hm : i.mnemonic ∈ [.INC, .DEC, .ASL, .LSR, .ROL, .ROR]
    · exact mem_eq_of_modifying_accumulator h hm (by_contra fun ho => hrmw ⟨hm, ho⟩)
    · exact (exec_changes h).mem_eq hs hm
  rw [SameByte, hmem]

/-- Settles O45: the one byte written lies at the effective address. -/
theorem storingFormsLeaveOtherBytes : Obligations.StoringFormsLeaveOtherBytes := by
  intro i m s t ea h hm ho hea a ha
  obtain ⟨v, hmem⟩ := mem_eq_write_of_storing h hm ho hea
  rw [SameByte, hmem]
  exact Memory.read_write_other _ v fun e => ha (BitVec.eq_of_toNat_eq e)

end Sys2Proof.Proofs
end

section
/-! A table word placed at PC (R81, R242): what decodes is an encoding, the placed bytes lie at PC, and a step runs the
instruction whose bytes lie there. -/

namespace Sys2Proof.Proofs

open Sys2Proof.Machine Sys2Proof.Claims

/-! ### Bytes that decode are an encoding (R63, R65) -/

/-- The operand bytes of a row's instruction, as the row puts them together: a 16-bit operand is taken apart again. -/
def builtOperand (b1 b2 : Byte) : Nat → List Byte
  | 0 => []
  | 1 => [b1]
  | _ => [lowByte (cat b2 b1), highByte (cat b2 b1)]

/-- They are the bytes the row was given, as many as its mode takes. -/
theorem builtOperand_eq_take {bytes : List Byte} {n : Nat} (hn : n ≤ 2) (h : n ≤ bytes.length) :
    builtOperand (bytes.getD 0 0) (bytes.getD 1 0) n = bytes.take n := by
  match n, bytes, hn, h with
  | 0, _, _, _ => rfl
  | 1, b1 :: _, _, _ => rfl
  | 2, b1 :: b2 :: _, _, _ => simp [builtOperand]

/-- The instruction a row makes of two bytes has the row's opcode and those of the bytes that its mode takes. -/
def RowEncodes (r : DecodeRow) : Prop :=
  ∀ b1 b2, encode (r.build b1 b2) = r.opcode :: builtOperand b1 b2 r.mode.operandLength

/-- Every row of the table does, by the definition of the instruction it makes. -/
theorem opcodeTable_encodes : ∀ r ∈ opcodeTable, RowEncodes r := by
  simp only [opcodeTable, List.forall_mem_append]
  and_intros
  all_goals
    iterate refine List.forall_mem_cons.2 ⟨fun _ _ => rfl, ?_⟩
    exact List.forall_mem_nil _

theorem operandLength_le_two (m : AddrMode) : m.operandLength ≤ 2 := by
  cases m <;> decide

theorem lookup_eq_some {op : Byte} {row : DecodeRow} (h : lookup op = some row) :
    row ∈ opcodeTable ∧ row.opcode = op :=
  ⟨List.mem_of_find?_eq_some h, by simpa using List.find?_some h⟩

theorem encode_instr {row : DecodeRow} {bytes : List Byte} (hrow : row ∈ opcodeTable)
    (h : row.mode.operandLength ≤ bytes.length) :
    encode (row.instr bytes) = row.opcode :: bytes.take row.mode.operandLength := by
  rw [DecodeRow.instr, opcodeTable_encodes row hrow, builtOperand_eq_take (operandLength_le_two _) h]

/-- Bytes that decode are the encoding of what they decode to, and the bytes left over. -/
theorem eq_encode_append_of_decode {bytes rest : List Byte} {i : Instr} (h : decode bytes = .ok (i, rest)) :
    bytes = encode i ++ rest := by
  cases bytes with
  | nil => simp [decode] at h
  | cons op tl =>
    cases hl : lookup op with
    | none => simp [decode, hl] at h
    | some row =>
      obtain ⟨hrow, rfl⟩ := lookup_eq_some hl
      by_cases hlen : tl.length < row.mode.operandLength
      · simp [decode, hl, hlen] at h
      · simp only [decode, hl, hlen, if_false, Except.ok.injEq, Prod.mk.injEq] at h
        obtain ⟨rfl, rfl⟩ := h
        rw [encode_instr hrow (Nat.le_of_not_lt hlen), List.cons_append, List.take_append_drop]

theorem tableWordBytes_of_decodeTableWord {nbits w : Nat} {i : Instr} (h : decodeTableWord nbits w = some i) :
    ∃ rest, tableWordBytes nbits w = encode i ++ rest := by
  unfold decodeTableWord at h
  cases hd : decode (tableWordBytes nbits w) with
  | error e => simp [hd] at h
  | ok r =>
    obtain ⟨j, rest⟩ := r
    simp only [hd, Option.some.injEq] at h
    subst h
    exact ⟨rest, eq_encode_append_of_decode hd⟩

/-! ### Placing bytes (R242) -/

theorem add_one_add_ofNat (a : Addr) (k : Nat) : a + 1#16 + BitVec.ofNat 16 k = a + BitVec.ofNat 16 (k + 1) := by
  rw [BitVec.add_assoc, Nat.add_comm k 1, BitVec.ofNat_add]

/-- Placing bytes leaves every address but those it places at. -/
theorem read_placeBytes_other {bs : List Byte} {a b : Addr} {m : Memory}
    (h : ∀ k < bs.length, b ≠ a + BitVec.ofNat 16 k) :
    Memory.read (placeBytes bs a m) b.toNat = Memory.read m b.toNat := by
  induction bs generalizing a m with
  | nil => rfl
  | cons v bs ih =>
    have hne : b ≠ a := by simpa using h 0 (by simp)
    have htail : ∀ k < bs.length, b ≠ a + 1#16 + BitVec.ofNat 16 k := fun k hk =>
      add_one_add_ofNat a k ▸ h (k + 1) (by simpa using hk)
    rw [placeBytes, ih htail, Memory.read_write_other _ _ fun e => hne (BitVec.eq_of_toNat_eq e)]

/-- Placed bytes lie one after the other, addresses modulo 65536; so many that they do not overlap. -/
theorem read_placeBytes {bs : List Byte} {a : Addr} {m : Memory} {k : Nat} {v : Byte} (hlen : bs.length ≤ 65536)
    (h : bs[k]? = some v) : Memory.read (placeBytes bs a m) (a + BitVec.ofNat 16 k).toNat = v := by
  induction bs generalizing a m k with
  | nil => simp at h
  | cons b bs ih =>
    have hbs : bs.length < 65536 := by simpa using hlen
    cases k with
    | zero =>
      have hne : ∀ j < bs.length, a ≠ a + 1#16 + BitVec.ofNat 16 j := fun j hj => by bv_omega
      obtain rfl : b = v := by simpa using h
      rw [BitVec.add_zero, placeBytes, read_placeBytes_other hne, Memory.read_write_same]
    | succ k =>
      rw [placeBytes, ← add_one_add_ofNat a k]
      exact ih hbs.le (by simpa using h)

/-- A byte of a placed table word reads back, where its address is mapped. -/
theorem reads_withFetchWord {s : State} {nbits w k : Nat} {v : Byte} (hm : Mapped s (s.pc + BitVec.ofNat 16 k))
    (h : (tableWordBytes nbits w)[k]? = some v) :
    Reads (s.withFetchWord nbits w) (s.pc + BitVec.ofNat 16 k) v :=
  ⟨hm, read_placeBytes (by simp [tableWordBytes]) h⟩

/-! ### The step at the bytes of an instruction (R80, R81) -/

theorem ofNat_toNat_add (a : Addr) (k : Nat) : BitVec.ofNat 16 (a.toNat + k) = a + BitVec.ofNat 16 k := by
  rw [BitVec.ofNat_add, BitVec.ofNat_toNat, BitVec.setWidth_eq]

/-- Identify answers the row and the operand bytes of the instruction that lies at PC. -/
theorem identify_of_bytesAtPc {i : Instr} {s : State} (h : BytesAtPc i s) :
    ∃ row, identify s = .ok (row, i.operand.bytes) ∧ row.mnemonic = i.mnemonic ∧ row.instr i.operand.bytes = i := by
  obtain ⟨row, hl, hmn, hmode, hinstr⟩ := Laws.TableRow.all i
  have hop : Reads s s.pc i.opcode := by simpa using h 0 i.opcode rfl
  have hoperand : fetchOperands s row.mode.operandLength (s.pc + 1#16) = .ok i.operand.bytes := by
    refine fetchOperands_ok_iff.2 ⟨?_, fun k b hk => ?_⟩
    · rw [hmode, Operand.length_bytes, Operand.length]
    · rw [add_one_add_ofNat, ← ofNat_toNat_add]
      exact h (k + 1) b hk
  exact ⟨row, identify_ok_iff.2 ⟨_, hop, hl, hoperand⟩, hmn, by simpa using hinstr []⟩

/-- A step at the bytes of an instruction is `exec` of it and its trace record. -/
theorem step_of_bytesAtPc {i : Instr} {s : State} (hr : s.run = .running) (h : BytesAtPc i s) :
    step s = emitIfCompleted (traceRecord s i.mnemonic i.operand.bytes) (exec i s) := by
  obtain ⟨row, hi, hmn, hinstr⟩ := identify_of_bytesAtPc h
  rw [step_of_identify hr hi, hmn, hinstr]

/-- A table word's instruction lies at PC once the word is placed there. -/
theorem bytesAtPc_withFetchWord {s : State} {nbits w : Nat} {i : Instr} (hd : decodeTableWord nbits w = some i)
    (hm : ∀ k < 3, Mapped s (s.pc + BitVec.ofNat 16 k)) : BytesAtPc i (s.withFetchWord nbits w) := by
  obtain ⟨rest, hbytes⟩ := tableWordBytes_of_decodeTableWord hd
  intro k b hk
  have hword : (tableWordBytes nbits w)[k]? = some b := by
    rw [hbytes, List.getElem?_append_left (List.getElem?_eq_some_iff.1 hk).1, hk]
  have hk3 : k < 3 := (List.getElem?_eq_some_iff.1 hword).1
  rw [ofNat_toNat_add]
  exact reads_withFetchWord (hm k hk3) hword

/-- Settles O10: the placed bytes begin with the encoding of the instruction they decode to, so the step runs it. -/
theorem placedTableWordRunsNext : Obligations.PlacedTableWordRunsNext := by
  intro s nbits w i hr hd h0 h1 h2
  have hm : ∀ k < 3, Mapped s (s.pc + BitVec.ofNat 16 k) := by
    intro k hk
    match k, hk with
    | 0, _ => simpa using h0
    | 1, _ => exact h1
    | 2, _ => exact h2
  have hb := bytesAtPc_withFetchWord hd hm
  refine ⟨hb, fun t ht => ?_⟩
  have hstep := step_of_bytesAtPc (s := s.withFetchWord nbits w) hr hb
  rw [ht] at hstep
  exact ⟨_, hstep⟩

end Sys2Proof.Proofs
end

section
/-! The encoding (R60 to R68): decoding an encoding, and the bytes that are no opcode. -/

namespace Sys2Proof.Proofs

open Sys2Proof.Machine Sys2Proof.Claims

/-! ### Decoding an encoding (R60 to R63, R67) -/

/-- What the decoder answers when the table knows the opcode and the operand bytes are there. -/
theorem decode_of_lookup_eq_some {op : Byte} {row : DecodeRow} {tl : List Byte} (hl : lookup op = some row)
    (h : row.mode.operandLength ≤ tl.length) :
    decode (op :: tl) = .ok (row.instr tl, tl.drop row.mode.operandLength) := by
  simp [decode, hl, Nat.not_lt_of_le h]

/-- The row of an instruction's opcode takes as many bytes as the instruction has, and makes the instruction of them. -/
theorem decode_encode_append (i : Instr) (rest : List Byte) : decode (encode i ++ rest) = .ok (i, rest) := by
  obtain ⟨row, hl, -, hmode, hinstr⟩ := Laws.TableRow.all i
  have hlen : row.mode.operandLength = i.operand.bytes.length := by
    rw [hmode, Operand.length_bytes, Operand.length]
  rw [encode, List.cons_append, decode_of_lookup_eq_some hl (by simp [hlen]), hinstr, hlen, List.drop_left]

/-- Settles O2: every instruction has its row in the decode table. -/
theorem decodeOfEncodeIsTheInstruction : Obligations.DecodeOfEncodeIsTheInstruction := decode_encode_append

/-- Settles O3: every row of the table takes the operand bytes that the encoder of its instruction writes. -/
theorem encodeOfDecodeIsTheBytes : Obligations.EncodeOfDecodeIsTheBytes :=
  fun _ _ _ h => eq_encode_append_of_decode h

/-- Settles O1: each list is the encoding of its instruction, with the bytes left over after it. -/
theorem writtenOutBytesDecode : Obligations.WrittenOutBytesDecode :=
  ⟨decode_encode_append (.ldaImmediate 0x05) [], decode_encode_append (.staAbsolute 0x0200) [],
    decode_encode_append (.ldaIndirectIndexed 0x20) [], decode_encode_append .aslAccumulator [],
    decode_encode_append (.jmpIndirect 0x02FF) [], decode_encode_append (.stxZeroPageY 0xFF) [],
    decode_encode_append (.adcImmediate 0x50) [0xEA], decode_encode_append .plp [],
    decode_encode_append (.bne 0xFD) [], decode_encode_append .nop []⟩

/-! ### The bytes that are no opcode (R64, R68) -/

/-- R68's list is the complement of the table's opcodes, over all 256 bytes. -/
theorem mem_unknownOpcodes_iff : ∀ op : Byte, op ∈ unknownOpcodes ↔ op ∉ opcodeTable.map DecodeRow.opcode := by
  decide +kernel

theorem lookup_eq_none_iff {op : Byte} : lookup op = none ↔ op ∈ unknownOpcodes := by
  rw [mem_unknownOpcodes_iff]
  simp [lookup]

theorem decode_eq_unknownOpcode_iff {op : Byte} {rest : List Byte} :
    decode (op :: rest) = .error (.unknownOpcode op) ↔ lookup op = none := by
  cases hl : lookup op with
  | none => simp [decode, hl]
  | some row =>
    by_cases h : rest.length < row.mode.operandLength
    · simp [decode, hl, h]
    · simp [decode_of_lookup_eq_some hl (Nat.le_of_not_lt h)]

/-! ### Faults in Identify (R81, R221) -/

/-- Identify faults at a readable byte that is no opcode. -/
theorem identify_of_lookup_eq_none {s : State} {op : Byte} (h : Reads s s.pc op) (hl : lookup op = none) :
    identify s = .error (.unknownOpcode op s.pc) := by
  refine bind_eq_error_iff.2 (.inr ⟨op, memRead_ok_iff.2 h, ?_⟩)
  rw [hl]

/-- Where Identify faults, the moves change the run status alone: the fault, or the host's halt (R81, R88). -/
theorem moves_of_identify_error {s t : State} {f : Fault} (hi : identify s = .error f) (hm : Moves s t) :
    t = s.setRun (.faulted f) ∨ t = s.setRun .halted := by
  have hs : step s = .fault f := step_of_identify_error hm.1 hi
  obtain ⟨hr, h | ⟨g, hg, rfl⟩ | ⟨g, row, hok, -⟩ | ⟨op, pc, h, -⟩ | rfl⟩ := hm
  · simp [hs] at h
  · rw [hi] at hg
    cases hg
    exact .inl rfl
  · simp [hi] at hok
  · simp [hs] at h
  · exact .inr (hostHalt_running hr)

/-- Settles O4: the decoder and Identify both ask the table for the opcode's row, and Identify faults before Execute. -/
theorem unknownOpcodesFaultBeforeAnyChange : Obligations.UnknownOpcodesFaultBeforeAnyChange := by
  refine ⟨fun op rest => (decode_eq_unknownOpcode_iff.trans lookup_eq_none_iff).symm, fun s op hr hread hop => ?_⟩
  have hi := identify_of_lookup_eq_none hread (lookup_eq_none_iff.2 hop)
  exact ⟨step_of_identify_error hr hi, fun t hm => moves_of_identify_error hi hm⟩

end Sys2Proof.Proofs
end

section
/-! The execution cycle (R80, R81, R89): the step at the bytes of an instruction, and Identify at the first byte it
cannot read. -/

namespace Sys2Proof.Proofs

open Sys2Proof.Machine Sys2Proof.Claims

/-- Settles O5: Identify answers the instruction that lies at PC, and a completed `exec` emits the record of the state
before it. -/
theorem stepExecutesTheInstructionAtPc : Obligations.StepExecutesTheInstructionAtPc := by
  intro i s hr hb
  rw [step_of_bytesAtPc hr hb]
  cases exec i s <;> rfl

/-! ### The first byte that cannot be read (R81, R222) -/

/-- Fetching operand bytes faults at the first unmapped address. -/
theorem fetchOperands_of_first_unmapped {s : State} {n k : Nat} {a : Addr} (hk : k < n)
    (hm : ∀ j < k, Mapped s (a + BitVec.ofNat 16 j)) (hu : Unmapped s (a + BitVec.ofNat 16 k)) :
    fetchOperands s n a = .error (.unmappedMemoryAddress (a + BitVec.ofNat 16 k)) := by
  induction n generalizing k a with
  | zero => exact absurd hk (Nat.not_lt_zero k)
  | succ n ih =>
    cases k with
    | zero =>
      rw [BitVec.add_zero] at hu ⊢
      exact bind_eq_error_iff.2 (.inl (memRead_error_iff.2 ⟨hu, rfl⟩))
    | succ k =>
      have hfirst : Mapped s a := by simpa using hm 0 k.succ_pos
      have hrest := ih (k := k) (a := a + 1#16) (Nat.lt_of_succ_lt_succ hk)
        (fun j hj => add_one_add_ofNat a j ▸ hm (j + 1) (Nat.succ_lt_succ hj)) (add_one_add_ofNat a k ▸ hu)
      rw [add_one_add_ofNat] at hrest
      exact bind_eq_error_iff.2 (.inr ⟨_, memRead_mapped hfirst, bind_eq_error_iff.2 (.inl hrest)⟩)

/-- Identify faults at an opcode byte it cannot read. -/
theorem identify_of_unmapped_opcode {s : State} (h : Unmapped s s.pc) :
    identify s = .error (.unmappedMemoryAddress s.pc) :=
  bind_eq_error_iff.2 (.inl (memRead_error_iff.2 ⟨h, rfl⟩))

/-- Where the opcode byte is an instruction's, Identify faults as the fetch of its operand bytes does. -/
theorem identify_of_fetchOperands_error {i : Instr} {s : State} {f : Fault} (hop : Reads s s.pc i.opcode)
    (h : fetchOperands s i.operand.length (s.pc + 1#16) = .error f) : identify s = .error f := by
  obtain ⟨row, hl, -, hmode, -⟩ := Laws.TableRow.all i
  refine bind_eq_error_iff.2 (.inr ⟨_, memRead_ok_iff.2 hop, ?_⟩)
  rw [hl]
  exact bind_eq_error_iff.2 (.inl (hmode ▸ h))

/-- Identify faults at the first byte of an instruction that it cannot read: the opcode or an operand byte. -/
theorem identify_of_first_unmapped {i : Instr} {s : State} {k : Nat} (hk : k < i.length)
    (hread : ∀ j b, j < k → (encode i)[j]? = some b → Reads s (s.pc + BitVec.ofNat 16 j) b)
    (hu : Unmapped s (s.pc + BitVec.ofNat 16 k)) :
    identify s = .error (.unmappedMemoryAddress (s.pc + BitVec.ofNat 16 k)) := by
  cases k with
  | zero =>
    rw [BitVec.add_zero] at hu ⊢
    exact identify_of_unmapped_opcode hu
  | succ k =>
    have hop : Reads s s.pc i.opcode := by simpa using hread 0 i.opcode k.succ_pos rfl
    have hko : k < i.operand.length := by
      rw [Instr.length] at hk
      omega
    have hm : ∀ j < k, Mapped s (s.pc + 1#16 + BitVec.ofNat 16 j) := by
      intro j hj
      have hlen : j + 1 < (encode i).length := by
        rw [length_encode]
        omega
      rw [add_one_add_ofNat]
      exact (hread (j + 1) _ (Nat.succ_lt_succ hj) (List.getElem?_eq_getElem hlen)).1
    have hf := fetchOperands_of_first_unmapped hko hm (add_one_add_ofNat s.pc k ▸ hu)
    rw [add_one_add_ofNat] at hf
    exact identify_of_fetchOperands_error hop hf

/-- Settles O6: Identify faults before Execute, so the step reports its fault and the moves change the run status
alone. -/
theorem identifyFaultsAtTheFirstUnmappedByte : Obligations.IdentifyFaultsAtTheFirstUnmappedByte := by
  intro i s k hr hk hread hu
  simp only [ofNat_toNat_add] at hread hu ⊢
  have hi := identify_of_first_unmapped hk hread hu
  exact ⟨step_of_identify_error hr hi, fun t hm => moves_of_identify_error hi hm⟩

end Sys2Proof.Proofs
end

section
/-! Proof of the statement about the resolver: its fixed-width sums are the sums of the rules (R104 to R110), and its
pointer reads are the pointers of R111 to R113. -/

namespace Sys2Proof.Proofs

open Sys2Proof.Machine

/-! ### Sums of addresses -/

/-- A zero-page sum stays in page zero (R105, R106, R112). -/
theorem zext16_add (a b : Byte) : zext16 (a + b) = BitVec.ofNat 16 ((a.toNat + b.toNat) % 256) := by
  rw [zext16_eq, BitVec.toNat_add]

/-- An indexed 16-bit sum wraps over the whole address space (R108, R109, R113). -/
theorem add_zext16 (w : Addr) (b : Byte) : w + zext16 b = BitVec.ofNat 16 (w.toNat + b.toNat) := by
  rw [zext16_eq, ofNat_toNat_add]

/-- A branch target is the sum with the signed offset (R110). -/
theorem add_sext16 (w : Addr) (off : Byte) : w + sext16 off = BitVec.ofInt 16 (w.toNat + off.toInt) := by
  rw [sext16, BitVec.signExtend, BitVec.ofInt_add, BitVec.ofInt_natCast, BitVec.ofNat_toNat, BitVec.setWidth_eq]

/-! ### The resolver -/

/-- The answer's equation turned as `EaIs` writes it. -/
theorem ok_eq_ok_iff {a ea : Addr} : (Except.ok a : Except Fault Addr) = .ok ea ↔ ea = a := by
  rw [Except.ok.injEq, eq_comm]

/-- The resolver answers by sums alone in seven modes (R104 to R110) and at the end of a pointer in three (R111 to
R113). -/
theorem effectiveAddr_ok_iff {m : EaOperand} {s : State} {ea : Addr} : effectiveAddr m s = .ok ea ↔ EaIs m s ea := by
  cases m with
  | zeroPage b => rw [effectiveAddr, EaIs, ok_eq_ok_iff, zext16_eq]
  | zeroPageX b | zeroPageY b => rw [effectiveAddr, EaIs, ok_eq_ok_iff, zext16_add]
  | absolute w => rw [effectiveAddr, EaIs, ok_eq_ok_iff]
  | absoluteX w | absoluteY w => rw [effectiveAddr, EaIs, ok_eq_ok_iff, add_zext16]
  | relative off => rw [effectiveAddr, EaIs, ok_eq_ok_iff, add_sext16]
  | indirect ptr => rw [effectiveAddr, EaIs, readPointer_ok_iff, pageHighAddr_eq]
  | indexedIndirect b => rw [effectiveAddr, EaIs, readPointer_ok_iff, zext16_add, zpHighAddr_eq]
  | indirectIndexed b =>
    simp only [effectiveAddr, EaIs, bind_eq_ok_iff, pure_eq_ok_iff, readPointer_ok_iff, zext16_eq b, zpHighAddr_eq,
      add_zext16, eq_comm (b := ea)]

/-- Resolving faults on a pointer read alone (R100, R111 to R113). -/
theorem effectiveAddr_error_iff {m : EaOperand} {s : State} {f : Fault} :
    effectiveAddr m s = .error f ↔ EaFaults m s f := by
  cases m with
  | zeroPage | zeroPageX | zeroPageY | absolute | absoluteX | absoluteY | relative => exact iff_of_false nofun id
  | indirect ptr => rw [effectiveAddr, EaFaults, readPointer_error_iff, pageHighAddr_eq]
  | indexedIndirect b => rw [effectiveAddr, EaFaults, readPointer_error_iff, zext16_add, zpHighAddr_eq]
  | indirectIndexed b =>
    simp only [effectiveAddr, EaFaults, bind_eq_error_iff, readPointer_error_iff, zext16_eq, zpHighAddr_eq,
      pure_ne_error, and_false, exists_false, or_false]

/-- Settles O11: mode by mode, the resolver's sums and pointer reads are those of the rules. -/
theorem resolverGivesTheEffectiveAddress : Obligations.ResolverGivesTheEffectiveAddress :=
  fun _ _ => ⟨fun _ => effectiveAddr_ok_iff, fun _ => effectiveAddr_error_iff⟩

end Sys2Proof.Proofs
end

section
/-! What the statements about instructions share: the forms of a mnemonic are its rows of the decode table (R63, R67),
the operand is read at `PC = PCpost` (R82, R114), and a completed instruction that declares N and Z ends with `NZ(res)`
(R85). -/

namespace Sys2Proof.Proofs

open Sys2Proof.Machine Sys2Proof.Claims

/-! ### The forms of a mnemonic (R63, R67) -/

/-- The forms the decode table gives a mnemonic: mode and opcode of each of its rows. -/
def tableForms (m : Mnemonic) : List (AddrMode × Byte) :=
  (opcodeTable.filter fun r => r.mnemonic = m).map fun r => (r.mode, r.opcode)

theorem mem_tableForms {m : Mnemonic} {q : AddrMode × Byte} :
    q ∈ tableForms m ↔ ∃ r ∈ opcodeTable, r.mnemonic = m ∧ (r.mode, r.opcode) = q := by
  simp only [tableForms, List.mem_map, List.mem_filter, decide_eq_true_eq, and_assoc]

/-- No two rows of the table have one opcode (R66). -/
theorem eq_of_opcode_eq {r r' : DecodeRow} (hr : r ∈ opcodeTable) (hr' : r' ∈ opcodeTable)
    (h : r.opcode = r'.opcode) : r = r' :=
  List.inj_on_of_nodup_map opcodeTable_opcodesDistinct hr hr' h

/-- Every instruction has the mnemonic, the mode and the opcode of a row of the table. -/
theorem exists_row (i : Instr) :
    ∃ r ∈ opcodeTable, r.mnemonic = i.mnemonic ∧ r.mode = i.operand.mode ∧ r.opcode = i.opcode := by
  obtain ⟨r, hl, hmn, hmode, -⟩ := Laws.TableRow.all i
  exact ⟨r, (lookup_eq_some hl).1, hmn, hmode, (lookup_eq_some hl).2⟩

/-- Every row of the table gives its mnemonic, mode and opcode to an instruction. -/
theorem exists_instr {r : DecodeRow} (hr : r ∈ opcodeTable) :
    ∃ i : Instr, i.mnemonic = r.mnemonic ∧ i.operand.mode = r.mode ∧ i.opcode = r.opcode := by
  have hop : (r.build 0 0).opcode = r.opcode := List.head_eq_of_cons_eq (opcodeTable_encodes r hr 0 0)
  obtain ⟨r', hr', hmn, hmode, hop'⟩ := exists_row (r.build 0 0)
  obtain rfl := eq_of_opcode_eq hr' hr (hop'.trans hop)
  exact ⟨_, hmn.symm, hmode.symm, hop⟩

/-- A list of forms is a mnemonic's when it is the table's, in any order. -/
theorem hasForms_of_perm {m : Mnemonic} {forms : List (AddrMode × Byte)} (h : (tableForms m).Perm forms) :
    HasForms m forms := by
  refine ⟨fun i hi => h.mem_iff.1 (mem_tableForms.2 ?_), fun q hq => ?_⟩
  · obtain ⟨r, hr, hmn, hmode, hop⟩ := exists_row i
    exact ⟨r, hr, hmn.trans hi, Prod.ext hmode hop⟩
  · obtain ⟨r, hr, rfl, rfl⟩ := mem_tableForms.1 (h.mem_iff.2 hq)
    exact exists_instr hr

/-- The eight branches (R196 to R203). -/
def branchMnemonics : List Mnemonic := [.BCC, .BCS, .BEQ, .BNE, .BMI, .BPL, .BVC, .BVS]

/-- Only the branches have the Relative mode (R110). -/
theorem mnemonic_of_relative {i : Instr} (h : i.operand.mode = .relative) : i.mnemonic ∈ branchMnemonics := by
  obtain ⟨r, hr, hmn, hmode, -⟩ := exists_row i
  have hrows : ∀ r ∈ opcodeTable, r.mode = .relative → r.mnemonic ∈ branchMnemonics := by
    decide +kernel
  exact hmn ▸ hrows r hr (hmode.trans h)

theorem mode_ne_relative {i : Instr} {ms : List Mnemonic} (hm : i.mnemonic ∈ ms)
    (hms : ∀ m ∈ ms, m ∉ branchMnemonics) : i.operand.mode ≠ .relative :=
  fun h => hms _ hm (mnemonic_of_relative h)

/-! ### The operand, read at PCpost (R82, R114) -/

theorem getData_ok_iff {src : Source} {s : State} {v : Byte} : src.getData s = .ok v ↔ SourceReads src s v := by
  cases src with
  | immediate b => exact getData_immediate_iff
  | ea m => simp only [getData_ea_iff, effectiveAddr_ok_iff, SourceReads]

theorem getData_error_iff {src : Source} {s : State} {f : Fault} :
    src.getData s = .error f ↔ SourceFaults src s f := by
  cases src with
  | immediate b => exact iff_of_false nofun id
  | ea m =>
    simp only [Source.getData, bind_eq_error_iff, effectiveAddr_error_iff, effectiveAddr_ok_iff, memRead_error_iff,
      SourceFaults]

/-- The pointer of a pointer mode lies where it lies whatever PC is (R111 to R113). -/
theorem EaFaults_setPc (m : EaOperand) (s : State) (w : Addr) (f : Fault) :
    EaFaults m (s.setPc w) f ↔ EaFaults m s f := by
  cases m <;> rfl

theorem SourceReads_setPc {src : Source} (hm : src.operand.mode ≠ .relative) (s : State) (w : Addr) (v : Byte) :
    SourceReads src (s.setPc w) v ↔ SourceReads src s v := by
  cases src with
  | immediate b => rfl
  | ea m => exact exists_congr fun ea => and_congr (EaIs_setPc hm s w ea) Iff.rfl

theorem SourceFaults_setPc {src : Source} (hm : src.operand.mode ≠ .relative) (s : State) (w : Addr) (f : Fault) :
    SourceFaults src (s.setPc w) f ↔ SourceFaults src s f := by
  cases src with
  | immediate b => rfl
  | ea m => exact or_congr (EaFaults_setPc m s w f) (exists_congr fun ea => and_congr (EaIs_setPc hm s w ea) Iff.rfl)

/-! ### Completion and faults of the shared meanings -/

/-- With N and Z declared, an instruction completes with `NZ(res)` (R85). -/
theorem completed_some_nz {m : Mnemonic} (hn : m.declaredFlags.n = true) (hz : m.declaredFlags.z = true) (t : State)
    (r : Byte) : completed m (t, some r) = t.setP (t.p.withNZ r) := by
  rw [completed, Flags.update_some_nz hn hz]

section
variable {i : Instr} {s : State} {m : Mnemonic}

/-- A reading instruction with a readable operand completes with its effect at PCpost. -/
theorem reading_next_of_reads {src : Source} {e : Byte → State → State × Option Byte} {v : Byte}
    (ho : i.operand = src.operand) (hrel : i.operand.mode ≠ .relative) (hv : SourceReads src s v) :
    execute m src.operand (reading src e) s = .next (completed m (e v (s.setPc (pcPost i s)))) := by
  rw [reading_next_iff, advancePc_of_operand ho]
  exact ⟨v, getData_ok_iff.2 ((SourceReads_setPc (ho ▸ hrel) s _ v).2 hv), rfl⟩

/-- A reading instruction faults where its operand does. -/
theorem reading_fault_of_faults {src : Source} {e : Byte → State → State × Option Byte} {f : Fault}
    (ho : i.operand = src.operand) (hrel : i.operand.mode ≠ .relative) (hf : SourceFaults src s f) :
    execute m src.operand (reading src e) s = .fault f := by
  rw [execute_fault_iff, reading_error_iff, getData_error_iff, advancePc_of_operand ho]
  exact (SourceFaults_setPc (ho ▸ hrel) s _ f).2 hf

/-- An instruction that makes no memory access completes with its effect at PCpost. -/
theorem pureEffect_next_completed {o : Operand} {e : State → State × Option Byte} (ho : i.operand = o) (s : State) :
    execute m o (pureEffect e) s = .next (completed m (e (s.setPc (pcPost i s)))) := by
  rw [pureEffect_next, advancePc_of_operand ho, completed]

/-- A store to a writable effective address completes with the register's byte there. -/
theorem store_next_of_writable {get : State → Byte} {dst : EaOperand} {ea : Addr} (ho : i.operand = .ea dst)
    (hrel : i.operand.mode ≠ .relative) (hea : EaIs dst s ea) (hw : Writable s ea) :
    store m get dst s =
      .next ((s.setPc (pcPost i s)).setMem (Memory.write s.mem ea.toNat (get (s.setPc (pcPost i s))))) := by
  rw [ho] at hrel
  rw [store_next_iff, advancePc_of_operand ho]
  exact ⟨ea, effectiveAddr_ok_iff.2 ((EaIs_setPc hrel s _ ea).2 hea), hw, rfl⟩

/-- A store faults where its address cannot be resolved, and then where it cannot be written (R228). -/
theorem store_fault_of_faults {get : State → Byte} {dst : EaOperand} {f : Fault} (ho : i.operand = .ea dst)
    (hrel : i.operand.mode ≠ .relative) (hf : EaFaults dst s f ∨ ∃ ea, EaIs dst s ea ∧ WriteFaults s ea f) :
    store m get dst s = .fault f := by
  rw [ho] at hrel
  simp only [store, execute_fault_iff, advancePc_of_operand ho, bind_eq_error_iff, pure_ne_error, and_false,
    exists_false, or_false, memWrite_error_iff, effectiveAddr_error_iff, effectiveAddr_ok_iff, EaFaults_setPc,
    EaIs_setPc hrel]
  exact hf

end

end Sys2Proof.Proofs
end

section
/-! Proofs of the statements about loads, stores and transfers (R120 to R131). -/

namespace Sys2Proof.Proofs

open Sys2Proof.Machine Sys2Proof.Claims

section
variable {i : Instr} {src : Source} {s : State}

/-- LDA, LDX and LDY are one operation, a load of some register. -/
theorem exec_loading (hm : i.mnemonic ∈ [.LDA, .LDX, .LDY]) (ho : i.operand = src.operand) (s : State) :
    ∃ mn set, exec i s = load mn set src s := by
  simp only [List.mem_cons, List.not_mem_nil, or_false] at hm
  obtain hm | hm | hm := hm
  · exact ⟨_, _, exec_LDA s hm ho⟩
  · exact ⟨_, _, exec_LDX s hm ho⟩
  · exact ⟨_, _, exec_LDY s hm ho⟩

/-- A load of a readable operand writes the register and `NZ` of the byte. -/
theorem load_next_of_reads {m : Mnemonic} {set : State → Byte → State} {v : Byte} (hn : m.declaredFlags.n = true)
    (hz : m.declaredFlags.z = true) (ho : i.operand = src.operand) (hrel : i.operand.mode ≠ .relative)
    (hv : SourceReads src s v) :
    load m set src s =
      .next ((set (s.setPc (pcPost i s)) v).setP ((set (s.setPc (pcPost i s)) v).p.withNZ v)) := by
  rw [load, reading_next_of_reads ho hrel hv, completed_some_nz hn hz]

end

/-- Settles O20: the three mnemonics are one load, whose operand is read at PCpost. -/
theorem loadsWriteRegisterAndNZ : Obligations.LoadsWriteRegisterAndNZ := by
  refine ⟨hasForms_of_perm (by decide), hasForms_of_perm (by decide),
    hasForms_of_perm (by decide), fun i src s ho => ?_⟩
  have hrel (hm : i.mnemonic ∈ [.LDA, .LDX, .LDY]) : i.operand.mode ≠ .relative := mode_ne_relative hm (by decide)
  refine ⟨fun v hv => ⟨fun hm => ?_, fun hm => ?_, fun hm => ?_⟩, fun f hf hm => ?_⟩
  · exact (exec_LDA s hm ho).trans (load_next_of_reads rfl rfl ho (hrel (by simp [hm])) hv)
  · exact (exec_LDX s hm ho).trans (load_next_of_reads rfl rfl ho (hrel (by simp [hm])) hv)
  · exact (exec_LDY s hm ho).trans (load_next_of_reads rfl rfl ho (hrel (by simp [hm])) hv)
  · obtain ⟨mn, set, he⟩ := exec_loading hm ho s
    exact he.trans (reading_fault_of_faults ho (hrel hm) hf)

/-- Settles O21: the three mnemonics are one store, which resolves its address at PCpost and does not read there. -/
theorem storesWriteMemoryAndNoFlag : Obligations.StoresWriteMemoryAndNoFlag := by
  refine ⟨hasForms_of_perm (by decide), hasForms_of_perm (by decide),
    hasForms_of_perm (by decide), decode_eq_unknownOpcode_iff.2 (lookup_eq_none_iff.2 (by decide)),
    fun i dst s ho => ?_⟩
  have hrel (hm : i.mnemonic ∈ [.STA, .STX, .STY]) : i.operand.mode ≠ .relative := mode_ne_relative hm (by decide)
  refine ⟨fun ea hea hw => ⟨fun hm => ?_, fun hm => ?_, fun hm => ?_⟩, fun f hf hm => ?_⟩
  · exact (exec_STA s hm ho).trans (store_next_of_writable ho (hrel (by simp [hm])) hea hw)
  · exact (exec_STX s hm ho).trans (store_next_of_writable ho (hrel (by simp [hm])) hea hw)
  · exact (exec_STY s hm ho).trans (store_next_of_writable ho (hrel (by simp [hm])) hea hw)
  · obtain ⟨mn, get, he⟩ := exec_storing hm ho s
    exact he.trans (store_fault_of_faults ho (hrel hm) hf)

/-- A transfer that declares N and Z completes with the copy and `NZ` of the byte copied. -/
theorem transfer_next {i : Instr} {m : Mnemonic} {get : State → Byte} {set : State → Byte → State}
    (hn : m.declaredFlags.n = true) (hz : m.declaredFlags.z = true) (ho : i.operand = .implicit) (s : State) :
    execute m .implicit (pureEffect fun s => (set s (get s), some (get s))) s =
      .next ((set (s.setPc (pcPost i s)) (get (s.setPc (pcPost i s)))).setP
        ((set (s.setPc (pcPost i s)) (get (s.setPc (pcPost i s)))).p.withNZ (get (s.setPc (pcPost i s))))) := by
  rw [pureEffect_next_completed ho, completed_some_nz hn hz]

/-- Settles O22: the five transfers into A, X and Y are one operation; TXS has no result, so no flag is written. -/
theorem transfersCopyRegisters : Obligations.TransfersCopyRegisters := by
  refine ⟨rfl, rfl, rfl, rfl, rfl, rfl, fun s => ⟨?_, ?_, ?_, ?_, ?_, ?_⟩⟩
  · exact transfer_next (get := State.a) (set := State.setX) rfl rfl rfl s
  · exact transfer_next (get := State.a) (set := State.setY) rfl rfl rfl s
  · exact transfer_next (get := State.x) (set := State.setA) rfl rfl rfl s
  · exact transfer_next (get := State.y) (set := State.setA) rfl rfl rfl s
  · exact transfer_next (get := State.sp) (set := State.setX) rfl rfl rfl s
  · exact pureEffect_next_completed (i := .txs) (e := fun s => (s.setSp s.x, none)) rfl s

end Sys2Proof.Proofs
end

section
/-! Proofs of the statements about logic, arithmetic, compare and bit test (R140 to R150): each instruction reads its
operand at PCpost and applies one ALU function, whose bits and sums are those of the rules. -/

namespace Sys2Proof.Proofs

open Sys2Proof.Machine Sys2Proof.Claims

/-! ### The ALU functions, as the rules state them (R140, R141, R150) -/

/-- A byte masked to bit 7 is not zero exactly when it has that bit. -/
theorem and_0x80_ne_zero (x : Byte) : (x &&& 0x80#8 != 0#8) = x.getLsbD 7 := by
  have h : x &&& 0x80#8 = if x.getLsbD 7 then 0x80#8 else 0#8 := BitVec.and_twoPow x 7
  rw [h]
  cases x.getLsbD 7 <;> rfl

/-- The overflow formula, by signs: the operands' bit 7 agree and the sum's differs (R140). -/
theorem overflow_eq_signs (a m r : Byte) :
    ((a ^^^ r) &&& (m ^^^ r) &&& 0x80#8 != 0#8) =
      (a.getLsbD 7 == m.getLsbD 7 && r.getLsbD 7 != a.getLsbD 7) := by
  rw [and_0x80_ne_zero, BitVec.getLsbD_and, BitVec.getLsbD_xor, BitVec.getLsbD_xor]
  cases a.getLsbD 7 <;> cases m.getLsbD 7 <;> cases r.getLsbD 7 <;> rfl

/-- The adder on the naturals (R140, R145). -/
theorem aluAdd_eq {a m r : Byte} {c : Bool} {sum : Nat} (hsum : sum = a.toNat + m.toNat + c.toNat)
    (hr : r = BitVec.ofNat 8 sum) :
    aluAdd a m c = ⟨r, decide (sum ≥ 256), a.getLsbD 7 == m.getLsbD 7 && r.getLsbD 7 != a.getLsbD 7⟩ := by
  subst hsum hr
  exact congrArg (AluSum.mk _ _) (overflow_eq_signs a m _)

/-- The one's complement on the naturals (R146). -/
theorem toNat_xor_0xFF (m : Byte) : (m ^^^ 0xFF#8).toNat = 255 - m.toNat := by
  rw [show m ^^^ 0xFF#8 = ~~~m from BitVec.xor_allOnes, BitVec.toNat_not]

theorem getLsbD_7_xor_0xFF (m : Byte) : (m ^^^ 0xFF#8).getLsbD 7 = !m.getLsbD 7 := by
  rw [BitVec.getLsbD_xor]
  exact Bool.xor_true _

/-- Adding the one's complement subtracts with borrow: the sum is the difference plus 256, so it carries when there is
no borrow (R146). -/
theorem aluAdd_complement {a m r : Byte} {c : Bool} {diff : Int}
    (hdiff : diff = (a.toNat : Int) - m.toNat - (1 - c.toNat)) (hr : r = BitVec.ofInt 8 diff) :
    aluAdd a (m ^^^ 0xFF#8) c =
      ⟨r, decide (diff ≥ 0), a.getLsbD 7 != m.getLsbD 7 && r.getLsbD 7 != a.getLsbD 7⟩ := by
  have hsum : ((a.toNat + (m ^^^ 0xFF#8).toNat + c.toNat : Nat) : Int) = diff + 256 := by
    have := m.isLt
    rw [toNat_xor_0xFF]
    omega
  have hr' : r = BitVec.ofNat 8 (a.toNat + (m ^^^ 0xFF#8).toNat + c.toNat) := by
    rw [hr, ← BitVec.ofInt_natCast, hsum, BitVec.ofInt_add]
    exact (BitVec.add_zero _).symm
  have hc : a.toNat + (m ^^^ 0xFF#8).toNat + c.toNat ≥ 256 ↔ diff ≥ 0 := by omega
  have hv : (a.getLsbD 7 == !m.getLsbD 7) = (a.getLsbD 7 != m.getLsbD 7) := by
    cases a.getLsbD 7 <;> cases m.getLsbD 7 <;> rfl
  rw [aluAdd_eq rfl hr', decide_eq_decide.2 hc, getLsbD_7_xor_0xFF, hv]

/-- The comparator's value is the difference modulo 256 (R141). -/
theorem aluCmp_value (r m : Byte) : (aluCmp r m).value = BitVec.ofInt 8 ((r.toNat : Int) - m.toNat) := by
  rw [Int.sub_eq_add_neg, BitVec.ofInt_add, BitVec.ofInt_neg, BitVec.ofInt_natCast, BitVec.ofInt_natCast,
    BitVec.ofNat_toNat, BitVec.ofNat_toNat, BitVec.setWidth_eq, BitVec.setWidth_eq, ← BitVec.sub_eq_add_neg, aluCmp]

/-- A bitwise and is zero exactly when no bit is set in both bytes (R150). -/
theorem and_eq_zero_iff (a m : Byte) :
    a &&& m = 0#8 ↔ ∀ k : Fin 8, ¬ (a.getLsbD k = true ∧ m.getLsbD k = true) := by
  rw [BitVec.eq_of_getLsbD_eq_iff, Fin.forall_iff]
  refine forall₂_congr fun k _ => ?_
  rw [BitVec.getLsbD_and, BitVec.getLsbD_zero, ← Bool.not_eq_true, Bool.and_eq_true]

/-! ### The instructions as one reading operation (R114) -/

/-- The mnemonics of spec/43. -/
def aluMnemonics : List Mnemonic := [.AND, .ORA, .EOR, .ADC, .SBC, .CMP, .CPX, .CPY, .BIT]

section
variable {i : Instr} {src : Source} {s : State}

theorem mode_ne_relative_of_alu (hm : i.mnemonic ∈ aluMnemonics) : i.operand.mode ≠ .relative :=
  mode_ne_relative hm (by decide)

/-- The nine mnemonics are one operation, which reads its operand and has some effect. -/
theorem exec_reading_of_alu (hm : i.mnemonic ∈ aluMnemonics) (ho : i.operand = src.operand) (s : State) :
    ∃ mn e, exec i s = execute mn src.operand (reading src e) s := by
  simp only [aluMnemonics, List.mem_cons, List.not_mem_nil, or_false] at hm
  obtain hm | hm | hm | hm | hm | hm | hm | hm | hm := hm
  · exact ⟨_, _, exec_AND s hm ho⟩
  · exact ⟨_, _, exec_ORA s hm ho⟩
  · exact ⟨_, _, exec_EOR s hm ho⟩
  · exact ⟨_, _, exec_ADC s hm ho⟩
  · exact ⟨_, _, exec_SBC s hm ho⟩
  · exact ⟨_, _, exec_CMP s hm ho⟩
  · exact ⟨_, _, exec_CPX s hm ho⟩
  · exact ⟨_, _, exec_CPY s hm ho⟩
  · exact ⟨_, _, exec_BIT s hm ho⟩

/-- They fault where the read of their operand does (R88, R222). -/
theorem exec_fault_of_alu {f : Fault} (hm : i.mnemonic ∈ aluMnemonics) (ho : i.operand = src.operand)
    (hf : SourceFaults src s f) : exec i s = .fault f := by
  obtain ⟨mn, e, he⟩ := exec_reading_of_alu hm ho s
  exact he.trans (reading_fault_of_faults ho (mode_ne_relative_of_alu hm) hf)

end

section
variable {i : Instr} {src : Source} {s : State} {m : Mnemonic} {v : Byte} (hn : m.declaredFlags.n = true)
  (hz : m.declaredFlags.z = true) (hm : i.mnemonic ∈ aluMnemonics) (ho : i.operand = src.operand)
  (hv : SourceReads src s v)
include hn hz hm ho hv

/-- A bitwise operation on a readable operand writes A and `NZ` of the result (R142 to R144). -/
theorem logic_next_of_reads {op : Byte → Byte → Byte} :
    logic m op src s = .next { s with pc := pcPost i s, a := op s.a v, p := s.p.withNZ (op s.a v) } := by
  rw [logic, reading_next_of_reads ho (mode_ne_relative_of_alu hm) hv, completed_some_nz hn hz]
  rfl

/-- An addition of a byte made from the operand writes A, `NZ` of the sum, and the adder's C and V (R145, R146). -/
theorem addToA_next_of_reads {g : Byte → Byte} {r : Byte} {carry overflow : Bool}
    (hsum : aluAdd s.a (g v) s.p.c = ⟨r, carry, overflow⟩) :
    execute m src.operand (reading src fun v s => addToA (g v) s) s =
      .next { s with pc := pcPost i s, a := r, p := { s.p.withNZ r with c := carry, v := overflow } } := by
  have hsum' : aluAdd (s.setPc (pcPost i s)).a (g v) (s.setPc (pcPost i s)).p.c = ⟨r, carry, overflow⟩ := hsum
  rw [reading_next_of_reads ho (mode_ne_relative_of_alu hm) hv, addToA, completed_some_nz hn hz, hsum']
  rfl

/-- A compare writes the comparator's C and `NZ` of the difference (R147 to R149). -/
theorem compareWith_next_of_reads {get : State → Byte} {reg : Byte} (hget : get (s.setPc (pcPost i s)) = reg) :
    compareWith m get src s =
      .next { s with
        pc := pcPost i s
        p := { s.p.withNZ (BitVec.ofInt 8 ((reg.toNat : Int) - v.toNat)) with
          c := decide (reg.toNat ≥ v.toNat) } } := by
  rw [compareWith, reading_next_of_reads ho (mode_ne_relative_of_alu hm) hv, completed_some_nz hn hz, hget,
    aluCmp_value]
  rfl

end

/-- Settles O23: the three mnemonics are one bitwise operation, and a byte is its eight bits. -/
theorem logicalOperationsCombineWithA : Obligations.LogicalOperationsCombineWithA := by
  refine ⟨hasForms_of_perm (by decide), hasForms_of_perm (by decide), hasForms_of_perm (by decide),
    fun i src s ho => ⟨?_, fun f hf hm => exec_fault_of_alu (List.mem_append_left _ hm) ho hf⟩⟩
  rintro v r hv (⟨hm, hr⟩ | ⟨hm, hr⟩ | ⟨hm, hr⟩)
  · obtain rfl : r = s.a &&& v := BitVec.eq_of_getLsbD_eq fun k hk => by rw [hr k hk, BitVec.getLsbD_and]
    exact (exec_AND s hm ho).trans (logic_next_of_reads rfl rfl (by simp [hm, aluMnemonics]) ho hv)
  · obtain rfl : r = s.a ||| v := BitVec.eq_of_getLsbD_eq fun k hk => by rw [hr k hk, BitVec.getLsbD_or]
    exact (exec_ORA s hm ho).trans (logic_next_of_reads rfl rfl (by simp [hm, aluMnemonics]) ho hv)
  · obtain rfl : r = s.a ^^^ v := BitVec.eq_of_getLsbD_eq fun k hk => by rw [hr k hk, BitVec.getLsbD_xor]
    exact (exec_EOR s hm ho).trans (logic_next_of_reads rfl rfl (by simp [hm, aluMnemonics]) ho hv)

/-- Settles O24: the sum is the adder's, and its overflow is read off the signs. -/
theorem adcAddsWithCarry : Obligations.AdcAddsWithCarry := by
  refine ⟨hasForms_of_perm (by decide), fun i src s hm ho => ?_⟩
  have halu : i.mnemonic ∈ aluMnemonics := by simp [hm, aluMnemonics]
  refine ⟨?_, fun f hf => exec_fault_of_alu halu ho hf⟩
  rintro m r _ hv rfl hr
  have hr' : r = BitVec.ofNat 8 (s.a.toNat + m.toNat + s.p.c.toNat) :=
    hr.trans (BitVec.eq_of_toNat_eq (Nat.mod_mod _ 256))
  exact (exec_ADC s hm ho).trans (addToA_next_of_reads (g := id) rfl rfl halu ho hv (aluAdd_eq rfl hr'))

/-- Settles O25: the sum with the one's complement is the difference plus 256. -/
theorem sbcSubtractsWithBorrow : Obligations.SbcSubtractsWithBorrow := by
  refine ⟨hasForms_of_perm (by decide), fun i src s hm ho => ?_⟩
  have halu : i.mnemonic ∈ aluMnemonics := by simp [hm, aluMnemonics]
  refine ⟨?_, fun f hf => exec_fault_of_alu halu ho hf⟩
  intro m r diff hv hdiff hr
  exact (exec_SBC s hm ho).trans (addToA_next_of_reads rfl rfl halu ho hv (aluAdd_complement hdiff hr))

/-- Settles O26: the three mnemonics are one compare, of three registers. -/
theorem comparesSetCarryZeroNegative : Obligations.ComparesSetCarryZeroNegative := by
  refine ⟨hasForms_of_perm (by decide), hasForms_of_perm (by decide), hasForms_of_perm (by decide),
    fun i src s ho => ⟨?_, fun f hf hm => exec_fault_of_alu ?_ ho hf⟩⟩
  · rintro reg m hv (⟨hm, rfl⟩ | ⟨hm, rfl⟩ | ⟨hm, rfl⟩)
    · exact (exec_CMP s hm ho).trans (compareWith_next_of_reads rfl rfl (by simp [hm, aluMnemonics]) ho hv rfl)
    · exact (exec_CPX s hm ho).trans (compareWith_next_of_reads rfl rfl (by simp [hm, aluMnemonics]) ho hv rfl)
    · exact (exec_CPY s hm ho).trans (compareWith_next_of_reads rfl rfl (by simp [hm, aluMnemonics]) ho hv rfl)
  · exact (by decide : [Mnemonic.CMP, .CPX, .CPY] ⊆ aluMnemonics) hm

/-- Settles O27: BIT has no result, so its three flags are those it writes. -/
theorem bitTestsAgainstA : Obligations.BitTestsAgainstA := by
  refine ⟨hasForms_of_perm (by decide), fun i src s hm ho => ?_⟩
  have halu : i.mnemonic ∈ aluMnemonics := by simp [hm, aluMnemonics]
  refine ⟨fun m hv => ?_, fun f hf => exec_fault_of_alu halu ho hf⟩
  rw [exec_BIT s hm ho, bit, reading_next_of_reads ho (mode_ne_relative_of_alu halu) hv,
    ← decide_eq_decide.2 (and_eq_zero_iff s.a m)]
  rfl

end Sys2Proof.Proofs
end

section
/-! Proofs of the statements about increment, decrement, shift and rotate (R160 to R170): every memory form is one
read-modify-write at PCpost, and each ALU function is the sum or quotient of its rule. -/

namespace Sys2Proof.Proofs

open Sys2Proof.Machine Sys2Proof.Claims

/-! ### The new values, on the naturals (R161 to R170) -/

theorem eq_add_one_of_toNat_eq {x r : Byte} (h : r.toNat = (x.toNat + 1) % 256) : r = x + 1#8 :=
  BitVec.eq_of_toNat_eq (h.trans (BitVec.toNat_add x 1#8).symm)

/-- Subtracting 1 is adding 255 modulo 256. -/
theorem eq_sub_one_of_toNat_eq {x r : Byte} (h : r.toNat = (x.toNat + 255) % 256) : r = x - 1#8 :=
  BitVec.eq_of_toNat_eq (h.trans (by rw [BitVec.toNat_sub, Nat.add_comm]; rfl))

theorem shiftLeft_one_eq_ofNat (v : Byte) : v <<< 1 = BitVec.ofNat 8 (2 * v.toNat) := by
  rw [BitVec.ofNat_mul, BitVec.ofNat_toNat, BitVec.setWidth_eq, BitVec.mul_comm]
  exact BitVec.shiftLeft_eq_mul_twoPow v 1

theorem ushiftRight_one_eq_ofNat (v : Byte) : v >>> 1 = BitVec.ofNat 8 (v.toNat / 2) := by
  rw [← Nat.shiftRight_one, ← BitVec.toNat_ushiftRight, BitVec.ofNat_toNat, BitVec.setWidth_eq]

theorem aluAsl_eq (v : Byte) (c : Bool) : aluAsl v c = ⟨BitVec.ofNat 8 (2 * v.toNat), v.getLsbD 7⟩ := by
  rw [aluAsl, shiftLeft_one_eq_ofNat]

theorem aluLsr_eq (v : Byte) (c : Bool) : aluLsr v c = ⟨BitVec.ofNat 8 (v.toNat / 2), v.getLsbD 0⟩ := by
  rw [aluLsr, ushiftRight_one_eq_ofNat]

/-- Bit 0 of the shifted byte is clear, so or-ing the carry in adds it (R169). -/
theorem aluRol_eq (v : Byte) (c : Bool) : aluRol v c = ⟨BitVec.ofNat 8 (2 * v.toNat + c.toNat), v.getLsbD 7⟩ := by
  have hdisjoint : v <<< 1 &&& BitVec.ofNat 8 c.toNat = 0#8 := by
    cases c with
    | false => exact BitVec.and_zero
    | true => exact (BitVec.and_twoPow (v <<< 1) 0).trans (if_neg (by simp))
  rw [aluRol, ← BitVec.add_eq_or_of_and_eq_zero _ _ hdisjoint, shiftLeft_one_eq_ofNat, ← BitVec.ofNat_add]

/-- Bit 7 of the shifted byte is clear, so or-ing the carry in adds it there (R170). -/
theorem aluRor_eq (v : Byte) (c : Bool) :
    aluRor v c = ⟨BitVec.ofNat 8 (v.toNat / 2 + 128 * c.toNat), v.getLsbD 0⟩ := by
  have hcarry : BitVec.ofNat 8 c.toNat <<< 7 = BitVec.ofNat 8 (128 * c.toNat) := by
    cases c <;> rfl
  have hdisjoint : v >>> 1 &&& BitVec.ofNat 8 c.toNat <<< 7 = 0#8 := by
    cases c with
    | false => exact BitVec.and_zero
    | true => exact (BitVec.and_twoPow (v >>> 1) 7).trans (if_neg (by simp))
  rw [aluRor, ← BitVec.add_eq_or_of_and_eq_zero _ _ hdisjoint, hcarry, ushiftRight_one_eq_ofNat, ← BitVec.ofNat_add]

/-! ### Read-modify-write (R160) -/

/-- The read comes first, so an unmapped address faults there; a ROM address can be read and faults at the write. -/
theorem modifying_error_of_writeFaults {m : EaOperand} {alu : Byte → Flags → Byte × Flags} {s : State} {ea : Addr}
    {f : Fault} (he : effectiveAddr m s = .ok ea) (hf : WriteFaults s ea f) :
    modifying (.ea m) alu s = .error f := by
  have hres : Place.resolve (.ea m) s = .ok (.address ea) := bind_eq_ok_iff.2 ⟨ea, he, rfl⟩
  refine bind_eq_error_iff.2 (.inr ⟨_, hres, bind_eq_error_iff.2 ?_⟩)
  obtain hu | ⟨⟨o, ho, hk⟩, rfl⟩ := hf
  · exact .inl (memRead_error_iff.2 hu)
  · exact .inr ⟨_, memRead_mapped ⟨o, ho⟩,
      bind_eq_error_iff.2 (.inl (memWrite_error_iff.2 (.inr ⟨⟨o, ho, hk⟩, rfl⟩)))⟩

section
variable {i : Instr} {s : State} {m : Mnemonic} {dst : EaOperand} {alu : Byte → Flags → Byte × Flags} {ea : Addr}
  {v r : Byte} {q : Flags}

/-- At a readable and writable effective address the new byte is written there, and `NZ` of it over the flags the
operation answers. -/
theorem modifying_next_of_reads (hn : m.declaredFlags.n = true) (hz : m.declaredFlags.z = true)
    (ho : i.operand = .ea dst) (hrel : i.operand.mode ≠ .relative) (hea : EaIs dst s ea) (hv : Reads s ea v)
    (hw : Writable s ea) (halu : alu v s.p = (r, q)) :
    execute m (Place.ea dst).operand (modifying (.ea dst) alu) s =
      .next { s with pc := pcPost i s, mem := Memory.write s.mem ea.toNat r, p := q.withNZ r } := by
  rw [ho] at hrel
  rw [modifying_next_iff, advancePc_of_operand ho, ← Flags.update_some_nz hn hz]
  exact ⟨ea, v, effectiveAddr_ok_iff.2 ((EaIs_setPc hrel s _ ea).2 hea), hv, hw, by rw [halu]; rfl⟩

/-- On the accumulator the new byte is written to A. -/
theorem modifying_accumulator_next_nz (hn : m.declaredFlags.n = true) (hz : m.declaredFlags.z = true)
    (ho : i.operand = .accumulator) (halu : alu s.a s.p = (r, q)) :
    execute m Place.accumulator.operand (modifying .accumulator alu) s =
      .next { s with pc := pcPost i s, a := r, p := q.withNZ r } := by
  have hpc : s.advancePc 0 = s.setPc (pcPost i s) := advancePc_of_operand ho s
  rw [modifying_accumulator_next, hpc, halu, Flags.update_some_nz hn hz]
  rfl

/-- INC, DEC, the shifts and the rotates fault where their effective address cannot be written. -/
theorem exec_fault_of_modifying {f : Fault} (hm : i.mnemonic ∈ [.INC, .DEC, .ASL, .LSR, .ROL, .ROR])
    (ho : i.operand = .ea dst) (hea : EaIs dst s ea) (hf : WriteFaults s ea f) : exec i s = .fault f := by
  have hrel : (Operand.ea dst).mode ≠ .relative := ho ▸ mode_ne_relative hm (by decide)
  obtain ⟨mn, alu, he⟩ := exec_modifying (pl := .ea dst) hm ho s
  have hpc : s.advancePc (Place.ea dst).operand.length = s.setPc (pcPost i s) := advancePc_of_operand ho s
  rw [he, execute_fault_iff, hpc]
  exact modifying_error_of_writeFaults (effectiveAddr_ok_iff.2 ((EaIs_setPc hrel s _ ea).2 hea)) hf

end

/-- The mnemonics of `ShiftGives` are one operation, whose ALU function gives the byte and the carry (R167 to R170). -/
theorem exec_shift_of_shiftGives {i : Instr} {v r : Byte} {cin c : Bool} (h : ShiftGives i.mnemonic v cin r c) :
    i.mnemonic ∈ [.ASL, .LSR, .ROL, .ROR] ∧
      ∃ f, f v cin = ⟨r, c⟩ ∧ ∀ pl s, i.operand = pl.operand → exec i s = shift i.mnemonic f pl s := by
  obtain ⟨hm, rfl, rfl⟩ | ⟨hm, rfl, rfl⟩ | ⟨hm, rfl, rfl⟩ | ⟨hm, rfl, rfl⟩ := h
  · exact ⟨by simp [hm], aluAsl, aluAsl_eq v cin, fun pl s ho => hm ▸ exec_ASL s hm ho⟩
  · exact ⟨by simp [hm], aluLsr, aluLsr_eq v cin, fun pl s ho => hm ▸ exec_LSR s hm ho⟩
  · exact ⟨by simp [hm], aluRol, aluRol_eq v cin, fun pl s ho => hm ▸ exec_ROL s hm ho⟩
  · exact ⟨by simp [hm], aluRor, aluRor_eq v cin, fun pl s ho => hm ▸ exec_ROR s hm ho⟩

/-- The shifts and the rotates declare N and Z (R71). -/
theorem declares_nz_of_shift :
    ∀ m ∈ [Mnemonic.ASL, .LSR, .ROL, .ROR], m.declaredFlags.n = true ∧ m.declaredFlags.z = true := by
  decide

/-- Settles O28: the four are transfers of a register's successor or predecessor to that register. -/
theorem registerIncrementsWrap : Obligations.RegisterIncrementsWrap := by
  refine ⟨rfl, rfl, rfl, rfl, fun s r => ⟨fun hr => ?_, fun hr => ?_, fun hr => ?_, fun hr => ?_⟩⟩
  · obtain rfl := eq_add_one_of_toNat_eq hr
    exact transfer_next (get := fun s => s.x + 1#8) (set := State.setX) rfl rfl rfl s
  · obtain rfl := eq_sub_one_of_toNat_eq hr
    exact transfer_next (get := fun s => s.x - 1#8) (set := State.setX) rfl rfl rfl s
  · obtain rfl := eq_add_one_of_toNat_eq hr
    exact transfer_next (get := fun s => s.y + 1#8) (set := State.setY) rfl rfl rfl s
  · obtain rfl := eq_sub_one_of_toNat_eq hr
    exact transfer_next (get := fun s => s.y - 1#8) (set := State.setY) rfl rfl rfl s

/-- Settles O29: both are one read-modify-write, which writes no flag directly. -/
theorem memoryIncrementsReadThenWrite : Obligations.MemoryIncrementsReadThenWrite := by
  refine ⟨hasForms_of_perm (by decide), hasForms_of_perm (by decide), fun i dst s ea ho hea =>
    ⟨?_, fun f hf hm => exec_fault_of_modifying (List.mem_append_left _ hm) ho hea hf⟩⟩
  have hrel (hm : i.mnemonic ∈ [.INC, .DEC]) : i.operand.mode ≠ .relative := mode_ne_relative hm (by decide)
  rintro v r hv hw (⟨hm, hr⟩ | ⟨hm, hr⟩)
  · obtain rfl := eq_add_one_of_toNat_eq hr
    exact (exec_INC (pl := .ea dst) s hm ho).trans
      (modifying_next_of_reads rfl rfl ho (hrel (by simp [hm])) hea hv hw rfl)
  · obtain rfl := eq_sub_one_of_toNat_eq hr
    exact (exec_DEC (pl := .ea dst) s hm ho).trans
      (modifying_next_of_reads rfl rfl ho (hrel (by simp [hm])) hea hv hw rfl)

/-- Settles O30: the four are one read-modify-write, which writes C directly, in A or at the effective address. -/
theorem shiftsRotateThroughCarry : Obligations.ShiftsRotateThroughCarry := by
  refine ⟨hasForms_of_perm (by decide), hasForms_of_perm (by decide), hasForms_of_perm (by decide),
    hasForms_of_perm (by decide), fun i s v r c hgives => ?_⟩
  obtain ⟨hm, f, hf, hexec⟩ := exec_shift_of_shiftGives hgives
  have hrmw : i.mnemonic ∈ [.INC, .DEC, .ASL, .LSR, .ROL, .ROR] := List.mem_append_right [Mnemonic.INC, .DEC] hm
  have hrel : i.operand.mode ≠ .relative := mode_ne_relative hm (by decide)
  obtain ⟨hn, hz⟩ := declares_nz_of_shift _ hm
  refine ⟨?_, fun dst ea ho hea => ⟨fun hv hw => ?_, fun f hf => exec_fault_of_modifying hrmw ho hea hf⟩⟩
  · rintro ho rfl
    rw [hexec .accumulator s ho, shift]
    exact modifying_accumulator_next_nz (q := { s.p with c := c }) hn hz ho (by rw [hf])
  · rw [hexec (.ea dst) s ho, shift]
    exact modifying_next_of_reads (q := { s.p with c := c }) hn hz ho hrel hea hv hw (by rw [hf])

end Sys2Proof.Proofs
end

section
/-! Proofs of the statements about the stack (R180 to R187): a push and a pull act on the byte at `0x0100 + SP`, with SP
modulo 256, and a pull that finds the bytes and SP as a push left them undoes it (R182, R183, R187, R192). -/

namespace Sys2Proof.Proofs

open Sys2Proof.Machine Sys2Proof.Claims

/-! ### The status byte on the stack (R31) -/

/-- Or-ing 0x30 in sets bits 4 and 5 and leaves the six flags at their bits. -/
theorem pushed_eq_PushedP (p : Flags) : p.pushed = PushedP p := by
  obtain ⟨c, z, i, d, b4, b5, v, n⟩ := p
  revert c z i d b4 b5 v n
  decide

/-- A pull of the byte a push of `p` wrote takes the six flags of `p` and keeps bits 4 and 5. -/
theorem PulledP_pushed (p q : Flags) : PulledP p.pushed q = { p with b4 := q.b4, b5 := q.b5 } := by
  obtain ⟨hc, hz, hi, hd, -, -, hv, hn⟩ := toInt_getLsbD p
  simp [PulledP, Flags.pushed, -BitVec.getLsbD_eq_getElem, BitVec.getLsbD_or, hc, hz, hi, hd, hv, hn]

/-! ### The stack after a push (R180 to R183) -/

section
variable {s t u : State}

theorem StackAt_ne_StackAt_sub_one (sp : Byte) : StackAt sp ≠ StackAt (sp - 1#8) := fun h => by
  have hsp := StackAt_inj.1 h
  bv_omega

theorem sp_of_push {v : Byte} (h : push v s = .ok t) : t.sp = s.sp - 1#8 := by
  obtain ⟨-, rfl⟩ := push_ok_iff.1 h
  rfl

/-- The byte pushed lies where SP pointed. -/
theorem reads_of_push {v : Byte} (h : push v s = .ok t) : Reads t (StackAt s.sp) v := by
  obtain ⟨hw, rfl⟩ := push_ok_iff.1 h
  exact ⟨hw.mapped, Memory.read_write_same _ _ _⟩

/-- A push leaves what reads at every other address. -/
theorem reads_of_push_other {v b : Byte} {a : Addr} (hr : Reads s a b) (h : push v s = .ok t)
    (ha : a ≠ StackAt s.sp) : Reads t a b := by
  obtain ⟨-, rfl⟩ := push_ok_iff.1 h
  exact ⟨hr.1, (read_write_stackAt _ _ _ ha).trans hr.2⟩

theorem sp_of_push16 {w : Addr} (h : push16 w s = .ok t) : t.sp = s.sp - 1#8 - 1#8 := by
  obtain ⟨-, -, rfl⟩ := push16_ok_iff.1 h
  rfl

/-- The word pushed lies in page 1 as a pointer, its high byte where SP pointed and its low byte one below (R182). -/
theorem pointerIs_of_push16 {w : Addr} (h : push16 w s = .ok t) :
    PointerIs t (StackAt (s.sp - 1#8)) (StackAt s.sp) w := by
  obtain ⟨s1, hhi, hlo⟩ := bind_eq_ok_iff.1 h
  have hsp : s1.sp = s.sp - 1#8 := sp_of_push hhi
  have hother : StackAt s.sp ≠ StackAt s1.sp := hsp ▸ StackAt_ne_StackAt_sub_one s.sp
  exact ⟨lowByte w, highByte w, hsp ▸ reads_of_push hlo, reads_of_push_other (reads_of_push hhi) hlo hother, by
    rw [← cat_eq_ofNat, cat_highByte_lowByte]⟩

/-- `Pull16()` right after `Push16(w)` answers `w` and restores SP. -/
theorem pull16_of_push16 {w : Addr} (h : push16 w s = .ok t) : pull16 t = .ok (w, t.setSp s.sp) := by
  rw [pull16_ok_iff, sp_of_push16 h, BitVec.sub_add_cancel, BitVec.sub_add_cancel]
  exact ⟨pointerIs_of_push16 h, rfl⟩

/-! ### A later state with the same stack bytes -/

theorem reads_of_sameByte {a : Addr} {v : Byte} (hr : Reads t a v) (hcfg : u.cfg = t.cfg) (hb : SameByte t u a) :
    Reads u a v := by
  obtain ⟨⟨o, ho⟩, hv⟩ := hr
  exact ⟨⟨o, hcfg ▸ ho⟩, hb.trans hv⟩

theorem pointerIs_of_sameByte {lo hi w : Addr} (h : PointerIs t lo hi w) (hcfg : u.cfg = t.cfg)
    (hlo : SameByte t u lo) (hhi : SameByte t u hi) : PointerIs u lo hi w := by
  obtain ⟨l, b, hl, hb, hw⟩ := h
  exact ⟨l, b, reads_of_sameByte hl hcfg hlo, reads_of_sameByte hb hcfg hhi, hw⟩

end

/-! ### Completion and faults of the stack instructions (R184 to R187) -/

theorem exec_pha (s : State) : exec .pha s = pushing .PHA State.a s := rfl
theorem exec_php (s : State) : exec .php s = pushing .PHP (fun s => s.p.pushed) s := rfl
theorem exec_pla (s : State) : exec .pla s = pulling .PLA (fun b s => (s.setA b, some b)) s := rfl
theorem exec_plp (s : State) : exec .plp s = pulling .PLP (fun b s => (s.setP (s.p.pulled b), none)) s := rfl

section
variable {i : Instr} {s : State} {m : Mnemonic} {get : State → Byte} {e : Byte → State → State × Option Byte}

/-- An instruction without operand bytes is at PCpost after its opcode (R82). -/
theorem advancePc_implicit (ho : i.operand = .implicit) : s.advancePc 0 = s.setPc (pcPost i s) :=
  advancePc_of_operand ho s

/-- A push at a writable stack byte completes with the byte the instruction gives at PCpost. -/
theorem pushing_next_of_writable (ho : i.operand = .implicit) (hw : Writable s (StackAt s.sp)) :
    pushing m get s = .next { s with
      pc := pcPost i s, mem := Memory.write s.mem (StackAt s.sp).toNat (get (s.setPc (pcPost i s))),
      sp := s.sp - 1#8 } := by
  rw [pushing_next_iff, advancePc_implicit ho]
  exact ⟨hw, rfl⟩

theorem pushing_fault_iff {f : Fault} : pushing m get s = .fault f ↔ WriteFaults s (StackAt s.sp) f := by
  simp only [pushing, execute_fault_iff, bind_eq_error_iff, push_error_iff, pure_ne_error, and_false, exists_false,
    or_false]
  rfl

/-- A pull of a readable byte completes with its effect at PCpost, after the increment of SP. -/
theorem pulling_next_of_reads {b : Byte} (ho : i.operand = .implicit) (hb : Reads s (StackAt (s.sp + 1#8)) b) :
    pulling m e s = .next (completed m (e b ((s.setPc (pcPost i s)).setSp (s.sp + 1#8)))) := by
  rw [pulling_next_iff, advancePc_implicit ho]
  exact ⟨b, hb, rfl⟩

theorem pulling_fault_iff {f : Fault} :
    pulling m e s = .fault f ↔
      Unmapped s (StackAt (s.sp + 1#8)) ∧ f = .unmappedMemoryAddress (StackAt (s.sp + 1#8)) := by
  simp only [pulling, execute_fault_iff, bind_eq_error_iff, pull_error_iff, pure_ne_error, and_false, exists_false,
    or_false]
  rfl

theorem exec_pla_of_reads {b : Byte} (hb : Reads s (StackAt (s.sp + 1#8)) b) :
    exec .pla s = .next { s with pc := pcPost .pla s, sp := s.sp + 1#8, a := b, p := s.p.withNZ b } := by
  rw [exec_pla, pulling_next_of_reads (i := .pla) rfl hb, completed_some_nz rfl rfl]
  rfl

theorem exec_plp_of_reads {b : Byte} (hb : Reads s (StackAt (s.sp + 1#8)) b) :
    exec .plp s = .next { s with pc := pcPost .plp s, sp := s.sp + 1#8, p := PulledP b s.p } := by
  rw [exec_plp, pulling_next_of_reads (i := .plp) rfl hb]
  rfl

/-- A completed PHP is a push of the status byte with bits 4 and 5 set, and the PC advance (R185). -/
theorem push_of_exec_php {t : State} (h : exec .php s = .next t) :
    ∃ t', push s.p.pushed s = .ok t' ∧ t = t'.setPc (pcPost .php s) := by
  rw [exec_php, pushing_next_iff, advancePc_implicit (i := .php) rfl] at h
  obtain ⟨hw, rfl⟩ := h
  exact ⟨_, push_ok_iff.2 ⟨hw, rfl⟩, rfl⟩

end

/-! ### JSR and RTS (R191, R192) -/

/-- A completed JSR is a push of the return address and a jump (R191). -/
theorem push16_of_exec_jsr {w : Addr} {s t : State} (h : exec (.jsr w) s = .next t) :
    ∃ t', push16 (s.pc + 3#16 - returnBias s) s = .ok t' ∧ t = t'.setPc w := by
  obtain ⟨hhi, hlo, rfl⟩ := callSubroutine_next_iff.1 h
  exact ⟨_, push16_ok_iff.2 ⟨hhi, hlo, rfl⟩, rfl⟩

/-- An RTS that finds `w` less the bias on the stack returns to `w` (R192). -/
theorem exec_rts_of_pointerIs {w : Addr} {u : State}
    (h : PointerIs u (StackAt (u.sp + 1#8)) (StackAt (u.sp + 1#8 + 1#8)) (w - returnBias u)) :
    exec .rts u = .next { u with pc := w, sp := u.sp + 1#8 + 1#8 } := by
  refine returnFromSubroutine_next_iff.2 ⟨_, h, ?_⟩
  rw [BitVec.sub_add_cancel]
  rfl

/-! ### The statements -/

/-- Settles O31: both are one push, whose byte is A or the status byte at PCpost. -/
theorem pushesWriteThenDecrement : Obligations.PushesWriteThenDecrement := by
  refine ⟨rfl, rfl, fun s sp hsp => ?_⟩
  obtain rfl := eq_sub_one_of_toNat_eq hsp
  simp only [exec_pha, exec_php, pushing_fault_iff, ← pushed_eq_PushedP]
  exact ⟨fun hw => ⟨pushing_next_of_writable rfl hw, pushing_next_of_writable rfl hw⟩, fun f hf => ⟨hf, hf⟩⟩

/-- Settles O32: both are one pull; PLA declares N and Z of the byte pulled, PLP has no result. -/
theorem pullsIncrementThenRead : Obligations.PullsIncrementThenRead := by
  refine ⟨rfl, rfl, fun s sp hsp => ?_⟩
  obtain rfl := eq_add_one_of_toNat_eq hsp
  refine ⟨fun b hb => ⟨exec_pla_of_reads hb, exec_plp_of_reads hb⟩, fun hu => ?_⟩
  simp only [exec_pla, exec_plp, pulling_fault_iff, and_true]
  exact ⟨hu, hu⟩

/-- Settles O33: the pulls find the two bytes in the reverse order of the pushes. -/
theorem pullSixteenInvertsPushSixteen : Obligations.PullSixteenInvertsPushSixteen := by
  intro w s t h
  refine ⟨pull16_of_push16 h, ?_, ?_⟩
  · obtain ⟨-, -, rfl⟩ := push16_ok_iff.1 h
    rfl
  · rw [sp_of_push16 h]
    bv_omega

/-- Settles O47: RTS pulls the word JSR pushed, and adds the bias JSR subtracted. -/
theorem rtsReturnsAfterJsr : Obligations.RtsReturnsAfterJsr := by
  intro w s t u h hcfg hsp hhi hlo
  have hbias : returnBias u = returnBias s := by
    rw [returnBias, returnBias, hcfg, (exec_kept h).cfg]
  obtain ⟨t', hpush, rfl⟩ := push16_of_exec_jsr h
  have hlow : u.sp + 1#8 = s.sp - 1#8 := by
    rw [hsp, State.setPc_sp, sp_of_push16 hpush, BitVec.sub_add_cancel]
  have hhigh : u.sp + 1#8 + 1#8 = s.sp := by
    rw [hlow, BitVec.sub_add_cancel]
  have hptr : PointerIs u (StackAt (u.sp + 1#8)) (StackAt (u.sp + 1#8 + 1#8)) (s.pc + 3#16 - returnBias u) := by
    rw [hhigh, hlow, hbias]
    exact pointerIs_of_sameByte (pointerIs_of_push16 hpush) hcfg hlo hhi
  rw [exec_rts_of_pointerIs hptr, hhigh]

/-- Settles O49: PLP pulls the byte PHP pushed, whose bits are the flags but for 4 and 5. -/
theorem plpRestoresWhatPhpPushed : Obligations.PlpRestoresWhatPhpPushed := by
  intro s t u h hcfg hsp hb
  obtain ⟨t', hpush, rfl⟩ := push_of_exec_php h
  have hsp' : u.sp + 1#8 = s.sp := by
    rw [hsp, State.setPc_sp, sp_of_push hpush, BitVec.sub_add_cancel]
  have hpushed : Reads u (StackAt (u.sp + 1#8)) s.p.pushed := by
    rw [hsp']
    exact reads_of_sameByte (reads_of_push hpush) hcfg hb
  rw [exec_plp_of_reads hpushed, hsp', PulledP_pushed]

end Sys2Proof.Proofs
end

section
/-! Proofs of the statements about control transfer (R190 to R203, R230): the word a jump, a call, a return, the trap or
a branch puts in PC, as the sums of the rules, and the stack bytes a return finds after a trap. -/

namespace Sys2Proof.Proofs

open Sys2Proof.Machine Sys2Proof.Claims

/-! ### Words and stack pointers, on the naturals (R9, R182, R183, R191) -/

theorem highByte_eq_ofNat (w : Addr) : highByte w = BitVec.ofNat 8 (w.toNat / 256) := by
  rw [← toNat_highByte, BitVec.ofNat_toNat, BitVec.setWidth_eq]

theorem lowByte_eq_ofNat (w : Addr) : lowByte w = BitVec.ofNat 8 (w.toNat % 256) := by
  rw [← toNat_lowByte, BitVec.ofNat_toNat, BitVec.setWidth_eq]

section
variable {x r : Byte}

theorem eq_add_two_of_toNat_eq (h : r.toNat = (x.toNat + 2) % 256) : r = x + 1#8 + 1#8 := by bv_omega
theorem eq_add_three_of_toNat_eq (h : r.toNat = (x.toNat + 3) % 256) : r = x + 1#8 + 1#8 + 1#8 := by bv_omega

/-- Subtracting 2 is adding 254 modulo 256. -/
theorem eq_sub_two_of_toNat_eq (h : r.toNat = (x.toNat + 254) % 256) : r = x - 1#8 - 1#8 := by bv_omega

/-- Subtracting 3 is adding 253 modulo 256. -/
theorem eq_sub_three_of_toNat_eq (h : r.toNat = (x.toNat + 253) % 256) : r = x - 1#8 - 1#8 - 1#8 := by bv_omega

end

/-- The address JSR pushes is PCpost less the bias (R191). -/
theorem returnAddress_eq (s : State) : returnAddress s = s.pc + 3#16 - returnBias s := by
  rw [returnAddress, returnBias, Int.sub_eq_add_neg, BitVec.ofInt_add, BitVec.ofInt_add, BitVec.ofInt_neg,
    BitVec.ofInt_natCast, BitVec.ofInt_natCast, BitVec.ofNat_toNat, BitVec.setWidth_eq, ← BitVec.sub_eq_add_neg]
  rfl

/-- The word RTS pulls, plus the bias (R192). -/
theorem ofNat_add_returnBias (n : Nat) (s : State) :
    BitVec.ofNat 16 (n + s.cfg.returnBias.val) = BitVec.ofNat 16 n + returnBias s :=
  BitVec.ofNat_add n s.cfg.returnBias.val

/-! ### Faults of jumps, calls and returns (R190 to R192) -/

section
variable {s : State} {f : Fault}

/-- A jump faults where its address cannot be resolved. -/
theorem jmp_fault_iff {m : EaOperand} : jmp m s = .fault f ↔ EaFaults m s f := by
  simp only [jmp, execute_fault_iff, bind_eq_error_iff, effectiveAddr_error_iff, pure_ne_error, and_false,
    exists_false, or_false]
  exact EaFaults_setPc m s _ f

/-- A call faults at the first of its two pushes that does. -/
theorem callSubroutine_fault_iff {w : Addr} :
    callSubroutine (.absolute w) s = .fault f ↔ WriteFaults s (StackAt s.sp) f ∨
      (Writable s (StackAt s.sp) ∧ WriteFaults s (StackAt (s.sp - 1#8)) f) := by
  simp only [callSubroutine, execute_fault_iff, effectiveAddr, bind_eq_error_iff, push16_error_iff, pure_ne_error,
    Except.ok.injEq, exists_eq_left', reduceCtorEq, false_or, and_false, exists_false, or_false]
  rfl

/-- A return from a call faults at the first of its two pulls that does. -/
theorem returnFromSubroutine_fault_iff :
    returnFromSubroutine s = .fault f ↔ PointerFaults s (StackAt (s.sp + 1#8)) (StackAt (s.sp + 1#8 + 1#8)) f := by
  simp only [returnFromSubroutine, execute_fault_iff, bind_eq_error_iff, pull16_error_iff, pure_ne_error, and_false,
    exists_false, or_false]
  rfl

end

/-! ### Completion and faults of the trap and the return from it (R193, R194) -/

section
variable {s u : State} {f : Fault}

theorem rti_next_iff : rti s = .next u ↔ returnFromBreak (s.advancePc 0) = .ok u := by
  rw [rti_eq]
  cases returnFromBreak (s.advancePc 0) <;> simp

theorem rti_fault_iff : rti s = .fault f ↔ returnFromBreak (s.advancePc 0) = .error f := by
  rw [rti_eq]
  cases returnFromBreak (s.advancePc 0) <;> simp

/-- RTI completes when its three bytes can be pulled. -/
theorem exec_rti_of_reads {b : Byte} {w : Addr} (hb : Reads s (StackAt (s.sp + 1#8)) b)
    (hw : PointerIs s (StackAt (s.sp + 1#8 + 1#8)) (StackAt (s.sp + 1#8 + 1#8 + 1#8)) w) :
    exec .rti s = .next { s with pc := w, sp := s.sp + 1#8 + 1#8 + 1#8, p := PulledP b s.p } :=
  rti_next_iff.2 (returnFromBreak_ok_iff.2 ⟨b, w, hb, hw, rfl⟩)

theorem brk_next_iff (hmode : s.cfg.brkMode = .vector) :
    brk s = .next u ↔ enterBreak (s.advancePc 0) = .ok u := by
  rw [brk_vector hmode]
  cases enterBreak (s.advancePc 0) <;> simp

theorem brk_fault_iff (hmode : s.cfg.brkMode = .vector) :
    brk s = .fault f ↔ enterBreak (s.advancePc 0) = .error f := by
  rw [brk_vector hmode]
  cases enterBreak (s.advancePc 0) <;> simp

/-- A BRK that completes did not refuse. -/
theorem enterBreak_of_exec_brk (h : exec .brk s = .next u) : enterBreak (s.advancePc 0) = .ok u := by
  cases hmode : s.cfg.brkMode with
  | refuse => cases h.symm.trans (brk_refuse hmode)
  | vector => exact (brk_next_iff hmode).1 h

/-- PCpost + 1 is the address after the byte that follows BRK. -/
theorem advancePc_zero_pc_add_one (s : State) : (s.advancePc 0).pc + 1#16 = s.pc + 2#16 :=
  BitVec.add_assoc s.pc 1#16 1#16

/-- The three bytes BRK leaves on the stack, as the rule writes them (R194). -/
theorem breakStack_advancePc (s : State) :
    breakStack (s.advancePc 0) =
      Memory.write
        (Memory.write
          (Memory.write s.mem (StackAt s.sp).toNat (BitVec.ofNat 8 ((s.pc + 2#16).toNat / 256)))
          (StackAt (s.sp - 1#8)).toNat (BitVec.ofNat 8 ((s.pc + 2#16).toNat % 256)))
        (StackAt (s.sp - 1#8 - 1#8)).toNat (PushedP s.p) := by
  rw [breakStack, advancePc_zero_pc_add_one, highByte_eq_ofNat, lowByte_eq_ofNat, pushed_eq_PushedP]
  rfl

end

/-! ### The stack after BRK (R194, R230) -/

/-- A completed trap entry is the push of the return address and the push of the status byte (R194); what follows them
writes I and PC. -/
theorem pushes_of_enterBreak {s u : State} (h : enterBreak s = .ok u) :
    ∃ s1 s2 w, push16 (s.pc + 1#16) s = .ok s1 ∧ push s.p.pushed s1 = .ok s2 ∧
      u = (s2.setP { s2.p with i := true }).setPc w := by
  obtain ⟨hhi, hlo, hp, w, -, rfl⟩ := enterBreak_ok_iff.1 h
  exact ⟨_, _, w, push16_ok_iff.2 ⟨hhi, hlo, rfl⟩, push_ok_iff.2 ⟨hp, rfl⟩, rfl⟩

/-- A push leaves a pointer that lies elsewhere. -/
theorem pointerIs_of_push_other {s t : State} {v : Byte} {lo hi w : Addr} (hw : PointerIs s lo hi w)
    (h : push v s = .ok t) (hlo : lo ≠ StackAt s.sp) (hhi : hi ≠ StackAt s.sp) : PointerIs t lo hi w := by
  obtain ⟨l, b, hl, hb, hw⟩ := hw
  exact ⟨l, b, reads_of_push_other hl h hlo, reads_of_push_other hb h hhi, hw⟩

/-- A completed BRK leaves PCpost + 1 in the stack page as a pointer, and the status byte below it (R194). -/
theorem stack_of_exec_brk {s t : State} (h : exec .brk s = .next t) :
    t.sp = s.sp - 1#8 - 1#8 - 1#8 ∧ Reads t (StackAt (s.sp - 1#8 - 1#8)) s.p.pushed ∧
      PointerIs t (StackAt (s.sp - 1#8)) (StackAt s.sp) (s.pc + 2#16) := by
  obtain ⟨s1, s2, w, hpc, hp, rfl⟩ := pushes_of_enterBreak (enterBreak_of_exec_brk h)
  have hsp : s1.sp = s.sp - 1#8 - 1#8 := sp_of_push16 (s := s.advancePc 0) hpc
  have hlo : StackAt (s.sp - 1#8) ≠ StackAt s1.sp := hsp ▸ StackAt_ne_StackAt_sub_one _
  have hhi : StackAt s.sp ≠ StackAt s1.sp := fun h => by
    have := StackAt_inj.1 h
    bv_omega
  have hspt : s2.sp = s1.sp - 1#8 := sp_of_push hp
  have hstatus : Reads s2 (StackAt s1.sp) s.p.pushed := reads_of_push hp
  have hptr := pointerIs_of_push_other (pointerIs_of_push16 hpc) hp hlo hhi
  rw [hsp] at hspt hstatus
  rw [advancePc_zero_pc_add_one] at hptr
  exact ⟨hspt, hstatus, hptr⟩

/-! ### Branches (R110, R195) -/

/-- A branch ends at the target of R110 if its condition holds, and at PCpost otherwise. -/
theorem branch_next_afterBranch (m : Mnemonic) (cond : Flags → Bool) (offset : Byte) (s : State) :
    branch m cond offset s = .next (afterBranch s offset (cond s.p)) := by
  have hpc : (s.advancePc 1).pc = BitVec.ofNat 16 (s.pc.toNat + 2) := (ofNat_toNat_add s.pc 2).symm
  have htarget : BitVec.ofNat 16 (s.pc.toNat + 2) + sext16 offset =
      BitVec.ofInt 16 (s.pc.toNat + 2 + offset.toInt) := by
    rw [BitVec.ofInt_add, BitVec.ofInt_add, BitVec.ofInt_natCast, BitVec.ofNat_add]
    rfl
  rw [branch_eq, hpc, htarget]
  rfl

/-! ### The statements -/

/-- Settles O34: PC becomes what the resolver answers, and a jump faults where the resolver does. -/
theorem jmpSetsPcToItsAddress : Obligations.JmpSetsPcToItsAddress := by
  refine ⟨hasForms_of_perm (by decide), fun w s => ⟨?_, fun lo hi hlo hhi => ?_, fun f hf => ?_⟩⟩
  · exact (jmp_next_iff (m := .absolute w)).2 ⟨w, rfl, rfl⟩
  · exact jmp_next_iff.2 ⟨_, effectiveAddr_ok_iff.2 ⟨lo, hi, hlo, hhi, rfl⟩, rfl⟩
  · exact jmp_fault_iff.2 hf

/-- Settles O35: a call is a 16-bit push of the return address, and a jump. -/
theorem jsrPushesReturnAddressAndJumps : Obligations.JsrPushesReturnAddressAndJumps := by
  refine ⟨fun w => ?_, fun w s sp1 sp2 h1 h2 => ?_⟩
  · rw [← lowByte_eq_ofNat, ← highByte_eq_ofNat]
    rfl
  obtain rfl := eq_sub_one_of_toNat_eq h1
  obtain rfl := eq_sub_two_of_toNat_eq h2
  refine ⟨fun hhi hlo => ?_, fun f hf => callSubroutine_fault_iff.2 (.inl hf), fun f hhi hf =>
    callSubroutine_fault_iff.2 (.inr ⟨hhi, hf⟩)⟩
  rw [← highByte_eq_ofNat, ← lowByte_eq_ofNat, returnAddress_eq]
  exact callSubroutine_next_iff.2 ⟨hhi, hlo, rfl⟩

/-- Settles O36: a return from a call is a 16-bit pull, and the bias is added to the word. -/
theorem rtsPullsPcAndAddsBias : Obligations.RtsPullsPcAndAddsBias := by
  refine ⟨rfl, fun s sp1 sp2 h1 h2 => ?_⟩
  obtain rfl := eq_add_one_of_toNat_eq h1
  obtain rfl := eq_add_two_of_toNat_eq h2
  refine ⟨fun lo hi hlo hhi => ?_, fun f hf => returnFromSubroutine_fault_iff.2 hf⟩
  rw [ofNat_add_returnBias]
  exact returnFromSubroutine_next_iff.2 ⟨_, ⟨lo, hi, hlo, hhi, rfl⟩, rfl⟩

/-- Settles O37: the return from the trap is a pull of P and a 16-bit pull of PC. -/
theorem rtiPullsStatusThenPc : Obligations.RtiPullsStatusThenPc := by
  refine ⟨rfl, fun s sp1 sp2 sp3 h1 h2 h3 => ?_⟩
  obtain rfl := eq_add_one_of_toNat_eq h1
  obtain rfl := eq_add_two_of_toNat_eq h2
  obtain rfl := eq_add_three_of_toNat_eq h3
  refine ⟨fun b lo hi hb hlo hhi => exec_rti_of_reads hb ⟨lo, hi, hlo, hhi, rfl⟩, fun hu => ?_, fun f hm hf => ?_⟩
  · exact rti_fault_iff.2 (returnFromBreak_error_iff.2 (.inl ⟨hu, rfl⟩))
  · exact rti_fault_iff.2 (returnFromBreak_error_iff.2 (.inr ⟨hm, hf⟩))

/-- Settles O38: the trap entry is a 16-bit push, a push and the read of the vector, which the pushes leave as it
was. -/
theorem brkTakesTheVector : Obligations.BrkTakesTheVector := by
  refine ⟨rfl, fun _ => brk_refuse, fun s sp1 sp2 sp3 hmode h1 h2 h3 => ?_⟩
  obtain rfl := eq_sub_one_of_toNat_eq h1
  obtain rfl := eq_sub_two_of_toNat_eq h2
  obtain rfl := eq_sub_three_of_toNat_eq h3
  have hfaults (f : Fault) := (brk_fault_iff (f := f) hmode).trans enterBreak_error_iff
  refine ⟨fun hhi hlo hp => ⟨fun l h hl hh => ?_, fun f hf => ?_⟩, fun f hf => ?_, fun f hhi hf => ?_,
    fun f hhi hlo hf => ?_⟩
  · rw [← breakStack_advancePc]
    exact (brk_next_iff hmode).2 (enterBreak_ok_iff.2 ⟨hhi, hlo, hp, _, ⟨l, h, hl, hh, rfl⟩, rfl⟩)
  · exact (hfaults f).2 (.inr (.inr (.inr ⟨hhi, hlo, hp, hf⟩)))
  · exact (hfaults f).2 (.inl hf)
  · exact (hfaults f).2 (.inr (.inl ⟨hhi, hf⟩))
  · exact (hfaults f).2 (.inr (.inr (.inl ⟨hhi, hlo, hf⟩)))

/-- Settles O40: the eight are one branch, on a flag or on its negation. -/
theorem branchesTestOneFlag : Obligations.BranchesTestOneFlag := by
  refine ⟨fun b => ⟨rfl, rfl, rfl, rfl, rfl, rfl, rfl, rfl⟩, fun b s => ?_⟩
  simp only [beq_true, beq_false]
  exact ⟨branch_next_afterBranch .BCC (fun p => !p.c) b s, branch_next_afterBranch .BCS Flags.c b s,
    branch_next_afterBranch .BEQ Flags.z b s, branch_next_afterBranch .BNE (fun p => !p.z) b s,
    branch_next_afterBranch .BMI Flags.n b s, branch_next_afterBranch .BPL (fun p => !p.n) b s,
    branch_next_afterBranch .BVC (fun p => !p.v) b s, branch_next_afterBranch .BVS Flags.v b s⟩

/-- Settles O48: RTI pulls the status byte and the word that BRK pushed, in the reverse order. -/
theorem rtiReturnsAfterBrk : Obligations.RtiReturnsAfterBrk := by
  intro s t u h hcfg hsp hhi hlo hp
  rw [show s.sp - 2#8 = s.sp - 1#8 - 1#8 by bv_omega] at hp
  obtain ⟨htsp, hstatus, hptr⟩ := stack_of_exec_brk h
  have h1 : u.sp + 1#8 = s.sp - 1#8 - 1#8 := by
    rw [hsp, htsp, BitVec.sub_add_cancel]
  have h2 : u.sp + 1#8 + 1#8 = s.sp - 1#8 := by
    rw [h1, BitVec.sub_add_cancel]
  have h3 : u.sp + 1#8 + 1#8 + 1#8 = s.sp := by
    rw [h2, BitVec.sub_add_cancel]
  have hb : Reads u (StackAt (u.sp + 1#8)) s.p.pushed := h1 ▸ reads_of_sameByte hstatus hcfg hp
  have hw : PointerIs u (StackAt (u.sp + 1#8 + 1#8)) (StackAt (u.sp + 1#8 + 1#8 + 1#8)) (s.pc + 2#16) := by
    rw [h3, h2]
    exact pointerIs_of_sameByte hptr hcfg hlo hhi
  rw [exec_rti_of_reads hb hw, h3, PulledP_pushed]

end Sys2Proof.Proofs
end

section
/-! Proof of the statement about the flag instructions and NOP (R210 to R217). -/

namespace Sys2Proof.Proofs

open Sys2Proof.Machine Sys2Proof.Claims

/-- Without a result value an instruction completes with no flag update (R85). -/
theorem completed_none (m : Mnemonic) (t : State) : completed m (t, none) = t := by
  rw [completed, Flags.update_none]
  rfl

/-- An instruction that only puts a new value in P ends at PCpost with that value, for any function of the flags. -/
theorem setFlags_next {i : Instr} {m : Mnemonic} (f : Flags → Flags) (ho : i.operand = .implicit) (s : State) :
    execute m .implicit (pureEffect fun s => (s.setP (f s.p), none)) s =
      .next { s with pc := pcPost i s, p := f s.p } := by
  rw [pureEffect_next_completed ho, completed_none]
  rfl

/-- Settles O41: each of the seven only puts a new value in P, its one flag forced; NOP has no effect at all. -/
theorem flagInstructionsForceOneFlag : Obligations.FlagInstructionsForceOneFlag := by
  refine ⟨rfl, rfl, rfl, rfl, rfl, rfl, rfl, rfl, fun s => ⟨?_, ?_, ?_, ?_, ?_, ?_, ?_, ?_⟩⟩
  · exact setFlags_next (fun p => { p with c := false }) rfl s
  · exact setFlags_next (fun p => { p with c := true }) rfl s
  · exact setFlags_next (fun p => { p with i := false }) rfl s
  · exact setFlags_next (fun p => { p with i := true }) rfl s
  · exact setFlags_next (fun p => { p with d := false }) rfl s
  · exact setFlags_next (fun p => { p with d := true }) rfl s
  · exact setFlags_next (fun p => { p with v := false }) rfl s
  · exact (pureEffect_next_completed (i := .nop) (e := fun s => (s, none)) rfl s).trans
      (congrArg Host.Outcome.next (completed_none _ _))

end Sys2Proof.Proofs
end
